-- ==== Sys2Proof/Word.lean ====
section
/-! DEFINITION. The characters that cross a port, and the index of a channel slot. -/

namespace Sys2Proof

/-- One character of a serial line: 8 data bits (Command Ports, opening paragraph). -/
abbrev Byte := BitVec 8

/-- A channel's position in the Channel Table, 0..31. -/
abbrev Slot := Fin 32

end Sys2Proof
end

