-- ==== Sys2Proof/Syntax.lean ====
section
/-! DEFINITION. The commands of the Fellcast 3210: one constructor of `Instr` for each row of
spec/opcode_table.json, with the operands the rules give that row. -/

namespace Sys2Proof

/-- The three command ports (Terms). -/
inductive Port where
  | L | A | B
  deriving DecidableEq, Repr

/-- The two automation ports, which alone may be preferred, first choice or target (R119, R130). -/
inductive DrPort where
  | A | B
  deriving DecidableEq, Repr

/-- The house rates of R1, in the order R1 lists them. -/
inductive HouseRate where
  | r25 | r2997 | r50 | r5994
  deriving DecidableEq, Repr

/-- A timecode of day, as a master writes it (R11). -/
structure Timecode where
  hh : Nat
  mm : Nat
  ss : Nat
  ff : Nat
  deriving DecidableEq, Repr

/-- A schedule time: day number and timecode (R10). -/
structure SchedTime where
  day : Nat
  tc : Timecode
  deriving DecidableEq, Repr

/-- Custody states, in the order of R106. -/
inductive CustodyState where
  | idle | main | taking | dr | returning | safe
  deriving DecidableEq, Repr

/-- Changeover outputs, in the order R215 codes them. -/
inductive Output where
  | main | drA | drB | safe
  deriving DecidableEq, Repr

/-- Actions of a policy table (R116). -/
inductive PolicyAction where
  | none | notify | takeNow | takeAtJunction
  deriving DecidableEq, Repr

/-- Batch kinds (R82). -/
inductive BatchKind where
  | edit | resync
  deriving DecidableEq, Repr

/-- Takeover modes (R107). -/
inductive TakeMode where
  | now | junction
  deriving DecidableEq, Repr

/-- Operations of ARM (R115). -/
inductive ArmOp where
  | replace | add | remove | toggle
  deriving DecidableEq, Repr

/-- Event kinds (R27). -/
inductive EventKind where
  | clip | live
  deriving DecidableEq, Repr

/-- One entry of an event's secondaries list (R28). -/
structure Secondary where
  trigger : Nat
  offset : Nat
  duration : Nat
  deriving DecidableEq, Repr

/-- The fields of a staged record as they stand on the line (R27, R215).  Every conditional field is
optional, so that a record which breaks R27 can be held in a buffer and meet its refusal at validation.
`joinBit` is bit 2 of the flags; `strayFlags` is bits 3 to 7, which a staged record leaves 0. -/
structure RecordFields where
  eventId : Nat
  kind : EventKind
  fixed : Bool
  joinBit : Bool
  strayFlags : Nat
  nominal : Nat
  fixedStart : Option SchedTime
  mediaId : Option (List Nat)
  inPoint : Option Nat
  source : Option Nat
  secondaries : List Secondary
  deriving DecidableEq, Repr

/-- A staged record: its fields, or the characters of a record whose length does not agree with the layout
of R215.  The buffer keeps either as received (R82). -/
inductive StagedRecord where
  | fields (f : RecordFields)
  | unreadable (chars : List Byte)
  deriving DecidableEq, Repr

/-- A batch entry (R82).  An INSERT's placement is an event id, or none for the head. -/
inductive Entry where
  | insert (placement : Option Nat) (rec : StagedRecord)
  | replace (id : Nat) (rec : StagedRecord)
  | delete (id : Nat)
  deriving DecidableEq, Repr

/-- The port a request came from and its tag (R204, R206). -/
structure Head where
  port : Port
  tag : Nat
  deriving DecidableEq, Repr

/-- A request body after the Port Unit's division by the request's layout: its fields, or a body too short
for them or holding characters beyond them (R207). -/
inductive Body (α : Type) where
  | fields (f : α)
  | misfit
  deriving DecidableEq, Repr

/-- A configuration value, or "keep" (R182, R184).  Where `α` is an `Option`, `none` stands for a received
value outside its enumeration (R215). -/
inductive Keep (α : Type) where
  | keep
  | give (v : α)
  deriving DecidableEq, Repr

/-- One field of MATCH's pattern: "any", a value, or a received value outside the table of R129. -/
inductive Pat (α : Type) where
  | any
  | is (v : α)
  | bad
  deriving DecidableEq, Repr

/-- One entry of a Port L PRESENCE; `healthy` is none when the flag is neither 0 nor 1 (R210). -/
structure PresenceEntry where
  service : Nat
  healthy : Option Bool
  mainRev : Nat
  deriving DecidableEq, Repr

/-- CONFIGURE HOUSE (R182, R216); `reserved` is set when a reserved bit of the keep mask is. -/
structure HouseFields where
  reserved : Bool
  rate : Keep (Option HouseRate)
  linkTimeout : Keep Nat
  autoTimeout : Keep Nat
  leaseTimeout : Keep Nat
  holdLimit : Keep Nat
  freeze : Keep (Option Bool)
  deriving DecidableEq, Repr

/-- CONFIGURE CHANNEL (R184, R216).  `inService` is the service setting, none when it is neither of the
two.  A given service ID of 0 is "none".  A given policy table holds the action of each index in order. -/
structure ChannelFields where
  channel : Nat
  inService : Option Bool
  reserved : Bool
  serviceId : Keep Nat
  preferred : Keep (Option DrPort)
  policy : Keep (List (Option PolicyAction))
  guard : Keep Nat
  cueLead : Keep Nat
  horizon : Keep Nat
  lagLimit : Keep Nat
  retention : Keep Nat
  quota : Keep Nat
  deriving DecidableEq, Repr

/-- OPEN BATCH (R84). -/
structure OpenFields where
  channel : Nat
  kind : Option BatchKind
  base : Option Nat
  deriving DecidableEq, Repr

/-- ADD ENTRIES (R87); `badKind` is set when an entry gives a kind other than the three, and `entries` then
holds the entries before it (R216). -/
structure AddFields where
  channel : Nat
  entries : List Entry
  badKind : Bool
  deriving DecidableEq, Repr

/-- CLOSE BATCH (R93); the declared source revision is present from Port L. -/
structure CloseFields where
  channel : Nat
  declared : Option Nat
  deriving DecidableEq, Repr

/-- READ EVENTS (R35); `start` is none for the head. -/
structure ReadFields where
  channel : Nat
  start : Option Nat
  count : Nat
  deriving DecidableEq, Repr

/-- The frame field of READ CURSOR (R58), or a selector outside its enumeration. -/
inductive FrameSelect where
  | now
  | time (t : SchedTime)
  | bad
  deriving DecidableEq, Repr

/-- READ CURSOR (R58). -/
structure CursorFields where
  channel : Nat
  frame : FrameSelect
  deriving DecidableEq, Repr

/-- TAKE (R120). -/
structure TakeFields where
  channel : Nat
  mode : Option TakeMode
  deriving DecidableEq, Repr

/-- CUE READY (R140). -/
structure ReadyFields where
  channel : Nat
  number : Nat
  deriving DecidableEq, Repr

/-- RELEASE HOLD (R77). -/
structure ReleaseFields where
  channel : Nat
  tEnd : SchedTime
  deriving DecidableEq, Repr

/-- RETURN (R150). -/
structure ReturnFields where
  channel : Nat
  frame : SchedTime
  eventId : Nat
  offset : Nat
  deriving DecidableEq, Repr

/-- ARM (R115). -/
structure ArmFields where
  op : Option ArmOp
  slots : List Nat
  deriving DecidableEq, Repr

/-- MATCH's pattern of ten fields (R129). -/
structure MatchFields where
  state : Pat CustodyState
  custodian : Pat (Option Port)
  output : Pat Output
  m : Pat Bool
  s : Pat Bool
  l : Pat Bool
  a : Pat Bool
  held : Pat Bool
  inFlight : Pat Bool
  holder : Pat (Option Port)
  deriving DecidableEq, Repr

/-- The channel set of READ AS-RUN: absent, present, or a set flag outside its enumeration (R216). -/
inductive SetField where
  | all
  | members (ms : List Nat)
  | bad
  deriving DecidableEq, Repr

/-- READ AS-RUN (R174). -/
structure AsRunFields where
  count : Nat
  set : SetField
  deriving DecidableEq, Repr

/-- MARK (R177); `follow` is none when the setting is neither on nor off. -/
structure MarkFields where
  value : Nat
  follow : Option Bool
  deriving DecidableEq, Repr

/-- CLEAR FAULTS (R200); `capture` is none when the setting is neither yes nor no. -/
structure ClearFields where
  slots : List Nat
  capture : Option Bool
  deriving DecidableEq, Repr

/-- The three rate-select pins of each port, read as a binary code 0..7 (pin table). -/
structure RatePins where
  l : Nat
  a : Nat
  b : Nat
  deriving DecidableEq, Repr

/-- What shows a frame to be bad (R204, R205).  A body length above 2,048 makes the Port Unit discard until
the line is idle. -/
inductive BadFrameCause where
  | stopBit | gap | length | check
  deriving DecidableEq, Repr

/-- What a Port Unit does with its receive line: hunts for an opening character; stands inside a frame, with
the characters received for it (the receive buffer); discards until the line is idle, after a frame of
body length above 2,048 (R205); or ignores the rest of a break (R212). -/
inductive Receive where
  | hunting
  | inFrame (chars : List Byte)
  | discarding
  | inBreak
  deriving DecidableEq, Repr

/-- How much of a commit's completion a COMMIT_COMPLETION takes: every step it still has to take, or the next one
alone, so that another command may be taken between two steps (R105, log entry 27). -/
inductive CompletionSpan where
  | whole | oneStep
  deriving DecidableEq, Repr

/-- The operands of COMMIT_COMPLETION: the channel of the commit, and how much of its completion is taken. -/
structure CompletionFields where
  slot : Nat
  span : CompletionSpan
  deriving DecidableEq, Repr

/-- The commands.  `slot` operands name the channel at which an event comes about.  `moment` is the time of
an arrival, counted from the release of reset in thirds of a nanosecond (log entry 2).  `custodyFirst`
names the slots whose switch frame, reached on this arrival, the Custody Controller takes before the
Timeline Resolver's work on the same arrival (R68, log entry 4). -/
inductive Instr where
  /-- DEVICE_RESET (R213). -/
  | deviceReset (pins : RatePins)
  /-- STORE_INITIALISATION_END (R21). -/
  | storeInitialisationEnd
  /-- HOUSE_PULSE (R5). -/
  | housePulse (moment : Nat) (custodyFirst : List Nat)
  /-- INSERTED_ARRIVAL (R6). -/
  | insertedArrival (moment : Nat) (custodyFirst : List Nat)
  /-- HOLD_LIMIT (R79). -/
  | holdLimit (slot : Nat)
  /-- LEASE_EXPIRED (R90). -/
  | leaseExpired (slot : Nat)
  /-- PRESENCE_EXPIRY (R209). -/
  | presenceExpiry (port : Port)
  /-- COMMIT_COMPLETION (R94, R105). -/
  | commitCompletion (completion : CompletionFields)
  /-- SWITCH_FRAME_REACHED (R142). -/
  | switchFrameReached (slot : Nat)
  /-- RETURN_SWITCH_FRAME (R158). -/
  | returnSwitchFrame (slot : Nat)
  /-- BAD_FRAME (R205). -/
  | badFrame (port : Port) (cause : BadFrameCause)
  /-- BREAK (R212). -/
  | lineBreak (port : Port)
  /-- UNKNOWN_REQUEST (R207). -/
  | unknownRequest (hd : Head) (code : Nat)
  /-- PRESENCE (R210). -/
  | presence (hd : Head) (body : Body (List PresenceEntry))
  /-- PORT_RESET (R212). -/
  | portReset (hd : Head) (body : Body Unit)
  /-- SET_TIME (R17). -/
  | setTime (hd : Head) (body : Body SchedTime)
  /-- CONFIGURE_HOUSE (R183). -/
  | configureHouse (hd : Head) (body : Body HouseFields)
  /-- CONFIGURE_CHANNEL (R184). -/
  | configureChannel (hd : Head) (body : Body ChannelFields)
  /-- READ_CHANNEL (R192). -/
  | readChannel (hd : Head) (body : Body Nat)
  /-- OPEN_BATCH (R84). -/
  | openBatch (hd : Head) (body : Body OpenFields)
  /-- ADD_ENTRIES (R87). -/
  | addEntries (hd : Head) (body : Body AddFields)
  /-- CLOSE_BATCH (R93). -/
  | closeBatch (hd : Head) (body : Body CloseFields)
  /-- ABORT_BATCH (R92). -/
  | abortBatch (hd : Head) (body : Body Nat)
  /-- READ_EVENTS (R35). -/
  | readEvents (hd : Head) (body : Body ReadFields)
  /-- READ_NEXT_EVENTS (R37). -/
  | readNextEvents (hd : Head) (body : Body Nat)
  /-- READ_CURSOR (R58). -/
  | readCursor (hd : Head) (body : Body CursorFields)
  /-- TAKE (R120). -/
  | take (hd : Head) (body : Body TakeFields)
  /-- CANCEL_TAKE (R122). -/
  | cancelTake (hd : Head) (body : Body Nat)
  /-- FETCH_CUE (R139). -/
  | fetchCue (hd : Head) (body : Body Nat)
  /-- CUE_READY (R140). -/
  | cueReady (hd : Head) (body : Body ReadyFields)
  /-- HOLD (R76). -/
  | hold (hd : Head) (body : Body Nat)
  /-- RELEASE_HOLD (R78). -/
  | releaseHold (hd : Head) (body : Body ReleaseFields)
  /-- RETURN (R151). -/
  | handback (hd : Head) (body : Body ReturnFields)
  /-- CANCEL_RETURN (R156). -/
  | cancelReturn (hd : Head) (body : Body Nat)
  /-- ARM (R115). -/
  | arm (hd : Head) (body : Body ArmFields)
  /-- MATCH (R129). -/
  | matchChannels (hd : Head) (body : Body MatchFields)
  /-- READ_AS_RUN (R175). -/
  | readAsRun (hd : Head) (body : Body AsRunFields)
  /-- MARK (R177). -/
  | mark (hd : Head) (body : Body MarkFields)
  /-- READ_STATUS (R203). -/
  | readStatus (hd : Head) (body : Body Unit)
  /-- READ_FAULTS (R199). -/
  | readFaults (hd : Head) (body : Body Unit)
  /-- CLEAR_FAULTS (R200). -/
  | clearFaults (hd : Head) (body : Body ClearFields)
  /-- LINE_IDLE (R205). -/
  | lineIdle (port : Port)
  /-- LINE_RETURNS_TO_MARK (R212). -/
  | lineReturnsToMark (port : Port)
  deriving DecidableEq, Repr

end Sys2Proof
end

