-- ==== Sys2Proof/WellFormed.lean ====
section
/-! DEFINITION. Which commands can come to the part: every number within the size that R215 and R216 give it
on the line, every conditional field present exactly in its case, every slot one of the 32.  The part's own
range checks are not here: a field out of the range of its rule but within its size is well formed, and the
rule refuses it. -/

namespace Sys2Proof

/-- `n` fits in `k` characters (R215). -/
def fits (k n : Nat) : Bool := n < 256 ^ k

/-- The head of a request: a tag of one character (R204). -/
def Head.wf (hd : Head) : Bool := fits 1 hd.tag

/-- A schedule time: day in 2 characters, each timecode field in 1 (R215). -/
def SchedTime.wf (t : SchedTime) : Bool :=
  fits 2 t.day && fits 1 t.tc.hh && fits 1 t.tc.mm && fits 1 t.tc.ss && fits 1 t.tc.ff

/-- A secondary: trigger 2, offset 3, duration 3 (R215). -/
def Secondary.wf (s : Secondary) : Bool := fits 2 s.trigger && fits 3 s.offset && fits 3 s.duration

/-- The fields of a staged record, with each conditional part present as its flags say, and the whole within
the count of one character (R215). -/
def RecordFields.wf (f : RecordFields) : Bool :=
  fits 4 f.eventId && decide (f.strayFlags < 32) && fits 3 f.nominal &&
  (match f.fixedStart with | some t => f.fixed && t.wf | none => !f.fixed) &&
  (match f.kind with
    | .clip => f.mediaId.isSome && f.inPoint.isSome && f.source.isNone
    | .live => f.mediaId.isNone && f.inPoint.isNone && f.source.isSome) &&
  (f.mediaId.getD []).all (fits 1) && fits 4 (f.inPoint.getD 0) && fits 2 (f.source.getD 0) &&
  f.secondaries.all Secondary.wf &&
  decide ((f.mediaId.getD []).length + 8 * f.secondaries.length ≤ 200)

/-- A value given for a configuration parameter fits `k` characters. -/
def Keep.fits (k : Nat) : Keep Nat → Bool
  | .keep => true
  | .give v => Sys2Proof.fits k v

/-- CONFIGURE HOUSE within its sizes (R216). -/
def HouseFields.wf (f : HouseFields) : Bool :=
  f.linkTimeout.fits 2 && f.autoTimeout.fits 2 && f.leaseTimeout.fits 2 && f.holdLimit.fits 3

/-- CONFIGURE CHANNEL within its sizes, a given policy table of 16 actions (R216). -/
def ChannelFields.wf (f : ChannelFields) : Bool :=
  fits 2 f.channel && f.serviceId.fits 2 && f.guard.fits 3 && f.cueLead.fits 2 && f.horizon.fits 2 &&
  f.lagLimit.fits 3 && f.retention.fits 2 && f.quota.fits 2 &&
  (match f.policy with | .keep => true | .give p => decide (p.length = 16))

/-- A slot operand names one of the 32 slots. -/
def slotWf (i : Nat) : Bool := i < 32

/-- A port's rate-select code is 0..7 (pin table). -/
def RatePins.wf (p : RatePins) : Bool := decide (p.l < 8) && decide (p.a < 8) && decide (p.b < 8)

/-- The members of a set take two characters each from Port L and one each from Ports A and B (R216). -/
def setWf (p : Port) (ms : List Nat) : Bool :=
  decide (ms.length < 256) && ms.all (fits (if p = .L then 2 else 1))

/-- One PRESENCE entry within its sizes (R216). -/
def PresenceEntry.wf (e : PresenceEntry) : Bool := fits 2 e.service && fits 4 e.mainRev

/-- One batch entry within its sizes: an unreadable record is one that `canRead` does not read (R216). -/
def Entry.wf (canRead : List Byte → Bool) : Entry → Bool
  | .insert pl rec => (match pl with | some id => decide (id ≠ 0) && fits 4 id | none => true) && recWf rec
  | .replace id rec => fits 4 id && recWf rec
  | .delete id => fits 4 id
where
  recWf : StagedRecord → Bool
    | .fields f => f.wf
    | .unreadable cs => decide (cs.length < 256) && !canRead cs

/-- A request's fields pass `ok`, or its body is a misfit. -/
def Body.wf {α : Type} (ok : α → Bool) : Body α → Bool
  | .fields f => ok f
  | .misfit => true

/-- The commands the surroundings of the part can send.  `canRead` tells a record that R215's layout reads. -/
def Instr.wf (canRead : List Byte → Bool) : Instr → Bool
  | .deviceReset pins => pins.wf
  | .storeInitialisationEnd => true
  | .housePulse _ first => first.all slotWf
  | .insertedArrival _ first => first.all slotWf
  | .holdLimit i => slotWf i
  | .leaseExpired i => slotWf i
  | .presenceExpiry _ => true
  | .commitCompletion f => slotWf f.slot
  | .switchFrameReached i => slotWf i
  | .returnSwitchFrame i => slotWf i
  | .badFrame _ _ => true
  | .lineBreak _ => true
  | .unknownRequest hd code => hd.wf && fits 1 code && (decide (code = 0) || decide (28 < code))
  | .presence hd b => hd.wf && (match hd.port with
      | .L => b.wf (fun es => decide (es.length < 256) && es.all PresenceEntry.wf)
      | _ => decide (b = .fields []))
  | .portReset hd _ => hd.wf
  | .setTime hd b => hd.wf && b.wf SchedTime.wf
  | .configureHouse hd b => hd.wf && b.wf HouseFields.wf
  | .configureChannel hd b => hd.wf && b.wf ChannelFields.wf
  | .readChannel hd b => hd.wf && b.wf (fits 2)
  | .openBatch hd b => hd.wf && b.wf fun f =>
      fits 2 f.channel && (match f.base with
        | some r => decide (f.kind ≠ some .resync) && fits 4 r
        | none => decide (f.kind = some .resync))
  | .addEntries hd b => hd.wf && b.wf fun f =>
      fits 2 f.channel && decide (f.entries.length < 255) && f.entries.all (Entry.wf canRead)
  | .closeBatch hd b => hd.wf && b.wf fun f =>
      fits 2 f.channel && (match f.declared with
        | some r => decide (hd.port = .L) && fits 4 r
        | none => decide (hd.port ≠ .L))
  | .abortBatch hd b => hd.wf && b.wf (fits 2)
  | .readEvents hd b => hd.wf && b.wf fun f =>
      fits 2 f.channel && fits 1 f.count && (match f.start with
        | some id => decide (id ≠ 0) && fits 4 id
        | none => true)
  | .readNextEvents hd b => hd.wf && b.wf (fits 1)
  | .readCursor hd b => hd.wf && b.wf fun f =>
      fits 2 f.channel && (match f.frame with | .time t => t.wf | _ => true)
  | .take hd b => hd.wf && b.wf fun f => fits 2 f.channel
  | .cancelTake hd b => hd.wf && b.wf (fits 2)
  | .fetchCue hd b => hd.wf && b.wf (fits 2)
  | .cueReady hd b => hd.wf && b.wf fun f => fits 2 f.channel && fits 2 f.number
  | .hold hd b => hd.wf && b.wf (fits 2)
  | .releaseHold hd b => hd.wf && b.wf fun f => fits 2 f.channel && f.tEnd.wf
  | .handback hd b => hd.wf && b.wf fun f =>
      fits 2 f.channel && f.frame.wf && fits 4 f.eventId && fits 4 f.offset
  | .cancelReturn hd b => hd.wf && b.wf (fits 2)
  | .arm hd b => hd.wf && b.wf fun f => setWf .A f.slots
  | .matchChannels hd _ => hd.wf
  | .readAsRun hd b => hd.wf && b.wf fun f =>
      fits 1 f.count && (match f.set with | .members ms => setWf hd.port ms | _ => true)
  | .mark hd b => hd.wf && b.wf fun f => fits 6 f.value
  | .readStatus hd _ => hd.wf
  | .readFaults hd _ => hd.wf
  | .clearFaults hd b => hd.wf && b.wf fun f => setWf .A f.slots
  | .lineIdle _ => true
  | .lineReturnsToMark _ => true

end Sys2Proof
end

