-- ==== Sys2Proof/Decode.lean ====
section
/-! DEFINITION. From what stands on the lines to commands: `decodeTableWord` for the table's bits, and the
layer of R204, R207, R215 and R216 that turns the characters of a request frame into a command.  Beside each
reader stands its writer. -/

namespace Sys2Proof

/-- The command a word spells by the opcode table's bits.  The table gives no row any bits, so no word spells
a command: the part's commands are events and request frames, not words (log entry 15). -/
def decodeTableWord (_nbits _w : Nat) : Option Instr := none

/-! ## Numbers (R215) -/

/-- `n` in `k` characters, high character first. -/
def numChars : Nat → Nat → List Byte
  | 0, _ => []
  | k + 1, n => BitVec.ofNat 8 (n / 256 ^ k) :: numChars k n

/-- A number of `k` characters, high character first, and the characters after it. -/
def takeNum : Nat → List Byte → Option (Nat × List Byte)
  | 0, bs => some (0, bs)
  | _ + 1, [] => none
  | k + 1, b :: bs =>
    match takeNum k bs with
    | some (v, rest) => some (b.toNat * 256 ^ k + v, rest)
    | none => none

/-- `n` characters, as numbers, and the characters after them. -/
def takeChars : Nat → List Byte → Option (List Nat × List Byte)
  | 0, bs => some ([], bs)
  | _ + 1, [] => none
  | n + 1, b :: bs =>
    match takeChars n bs with
    | some (cs, rest) => some (b.toNat :: cs, rest)
    | none => none

/-- `n` items in a row, each read by `one`. -/
def takeMany {α : Type} (one : List Byte → Option (α × List Byte)) : Nat → List Byte → Option (List α × List Byte)
  | 0, bs => some ([], bs)
  | n + 1, bs =>
    match one bs with
    | none => none
    | some (a, bs1) =>
      match takeMany one n bs1 with
      | none => none
      | some (as, rest) => some (a :: as, rest)

/-- A body divided with nothing left over, or a misfit (R207). -/
def whole {α : Type} : Option (α × List Byte) → Body α
  | some (a, []) => .fields a
  | _ => .misfit

/-! ## Enumerated fields: values numbered from 0 in the order the reference first lists them (R215; which list that is,
DEDUCED, log entry 26) -/

/-- The value a code names in a list of values, or none outside it. -/
def ofCode {α : Type} (vs : List α) (n : Nat) : Option α := vs[n]?

/-- The code of a value, or 254, which no enumeration has, for a received value outside it. -/
def toCode {α : Type} [DecidableEq α] (vs : List α) : Option α → Nat
  | some v => vs.idxOf v
  | none => 254

def rateCodes : List HouseRate := [.r25, .r2997, .r50, .r5994]
def actionCodes : List PolicyAction := [.none, .notify, .takeNow, .takeAtJunction]
def batchKindCodes : List BatchKind := [.edit, .resync]
def modeCodes : List TakeMode := [.now, .junction]
def armCodes : List ArmOp := [.replace, .add, .remove, .toggle]
def custodyCodes : List CustodyState := [.idle, .main, .taking, .dr, .returning, .safe]
def outputCodes : List Output := [.main, .drA, .drB, .safe]
/-- Ports are none 0, L 1, A 2, B 3. -/
def portCodes : List (Option Port) := [none, some .L, some .A, some .B]
/-- "on, off", "yes, no" and "in service, out of service" are listed with the first named first. -/
def yesNoCodes : List Bool := [true, false]
/-- Presence, PRESENT or ABSENT, in the order the Terms list them (DEDUCED, log entry 26). -/
def presenceCodes : List Bool := [true, false]
/-- A healthy flag, and each of M, S, L and A in a pattern, is 0 or 1. -/
def bitCodes : List Bool := [false, true]

/-- The preferred DR port is a port code. -/
def drPortOf : Nat → Option DrPort
  | 2 => some .A
  | 3 => some .B
  | _ => none

def drPortCode : Option DrPort → Nat
  | some .A => 2
  | some .B => 3
  | none => 254

/-- A pattern field: 255 for "any". -/
def patOf {α : Type} (vs : List α) (n : Nat) : Pat α :=
  if n = 255 then .any else match ofCode vs n with | some v => .is v | none => .bad

def patCode {α : Type} [DecidableEq α] (vs : List α) : Pat α → Nat
  | .any => 255
  | .is v => toCode vs (some v)
  | .bad => 254

/-! ## Schedule times and event records (R215) -/

def schedChars (t : SchedTime) : List Byte :=
  numChars 2 t.day ++ numChars 1 t.tc.hh ++ numChars 1 t.tc.mm ++ numChars 1 t.tc.ss ++ numChars 1 t.tc.ff

def takeSched (bs : List Byte) : Option (SchedTime × List Byte) := do
  let (day, bs) ← takeNum 2 bs
  let (hh, bs) ← takeNum 1 bs
  let (mm, bs) ← takeNum 1 bs
  let (ss, bs) ← takeNum 1 bs
  let (ff, bs) ← takeNum 1 bs
  pure (⟨day, ⟨hh, mm, ss, ff⟩⟩, bs)

def secondaryChars (s : Secondary) : List Byte :=
  numChars 2 s.trigger ++ numChars 3 s.offset ++ numChars 3 s.duration

def takeSecondary (bs : List Byte) : Option (Secondary × List Byte) := do
  let (t, bs) ← takeNum 2 bs
  let (o, bs) ← takeNum 3 bs
  let (d, bs) ← takeNum 3 bs
  pure (⟨t, o, d⟩, bs)

/-- The flags character: bit 0 kind, bit 1 start mode, bit 2 join, bits 3 to 7 the rest. -/
def recordFlags (f : RecordFields) : Nat :=
  (if f.kind = .live then 1 else 0) + (if f.fixed then 2 else 0) + (if f.joinBit then 4 else 0) + 8 * f.strayFlags

/-- The characters of a record after its record length. -/
def recordChars (f : RecordFields) : List Byte :=
  numChars 4 f.eventId ++ numChars 1 (recordFlags f) ++ numChars 3 f.nominal ++
  (match f.fixedStart with | some t => schedChars t | none => []) ++
  (match f.mediaId with | some cs => numChars 1 cs.length ++ cs.map (BitVec.ofNat 8) | none => []) ++
  (match f.inPoint with | some n => numChars 4 n | none => []) ++
  (match f.source with | some n => numChars 2 n | none => []) ++
  numChars 1 f.secondaries.length ++ f.secondaries.flatMap secondaryChars

/-- The fields of a record, from the characters after its record length. -/
def takeRecordFields (bs : List Byte) : Option (RecordFields × List Byte) := do
  let (id, bs) ← takeNum 4 bs
  let (flags, bs) ← takeNum 1 bs
  let (nominal, bs) ← takeNum 3 bs
  let live := flags % 2 = 1
  let fixed := flags / 2 % 2 = 1
  let (fixedStart, bs) ← if fixed then (takeSched bs).map (fun r => (some r.1, r.2)) else some (none, bs)
  let (mediaId, bs) ← if live then some (none, bs) else do
    let (n, bs) ← takeNum 1 bs
    let (cs, bs) ← takeChars n bs
    pure (some cs, bs)
  let (inPoint, bs) ← if live then some (none, bs) else (takeNum 4 bs).map (fun r => (some r.1, r.2))
  let (source, bs) ← if live then (takeNum 2 bs).map (fun r => (some r.1, r.2)) else some (none, bs)
  let (n, bs) ← takeNum 1 bs
  let (secs, bs) ← takeMany takeSecondary n bs
  pure ({ eventId := id, kind := if live then .live else .clip, fixed := fixed,
          joinBit := flags / 4 % 2 = 1, strayFlags := flags / 8, nominal := nominal, fixedStart := fixedStart,
          mediaId := mediaId, inPoint := inPoint, source := source, secondaries := secs }, bs)

/-- The layout of R215 divides these characters exactly. -/
def canReadRecord (bs : List Byte) : Bool :=
  match takeRecordFields bs with
  | some (_, []) => true
  | _ => false

/-- A staged record: its record length, then that many characters (log entry 13). -/
def stagedChars : StagedRecord → List Byte
  | .fields f => numChars 1 (recordChars f).length ++ recordChars f
  | .unreadable cs => numChars 1 cs.length ++ cs

def takeStaged (bs : List Byte) : Option (StagedRecord × List Byte) := do
  let (n, bs) ← takeNum 1 bs
  if bs.length < n then none else
  let cs := bs.take n
  let r := match takeRecordFields cs with
    | some (f, []) => StagedRecord.fields f
    | _ => StagedRecord.unreadable cs
  pure (r, bs.drop n)

/-- An optional event id, 0 for none. -/
def optId (n : Nat) : Option Nat := if n = 0 then none else some n

/-- Entry kinds number INSERT 0, REPLACE 1, DELETE 2 (R82, R215). -/
def entryChars : Entry → List Byte
  | .insert pl r => numChars 1 0 ++ numChars 4 (pl.getD 0) ++ stagedChars r
  | .replace id r => numChars 1 1 ++ numChars 4 id ++ stagedChars r
  | .delete id => numChars 1 2 ++ numChars 4 id

/-- One entry whose kind is `kind`. -/
def takeEntry (kind : Nat) (bs : List Byte) : Option (Entry × List Byte) := do
  let (id, bs) ← takeNum 4 bs
  if kind = 0 then
    let (r, bs) ← takeStaged bs
    pure (.insert (optId id) r, bs)
  else if kind = 1 then
    let (r, bs) ← takeStaged bs
    pure (.replace id r, bs)
  else pure (.delete id, bs)

/-- The entries of ADD ENTRIES; from an entry of another kind on, the characters are not divided (R216). -/
def takeEntries : Nat → List Byte → Option ((List Entry × Bool) × List Byte)
  | 0, bs => some (([], false), bs)
  | n + 1, bs =>
    match takeNum 1 bs with
    | none => none
    | some (kind, bs1) =>
      if 2 < kind then some (([], true), []) else
      match takeEntry kind bs1 with
      | none => none
      | some (e, bs2) =>
        match takeEntries n bs2 with
        | none => none
        | some ((es, bad), rest) => some ((e :: es, bad), rest)

/-! ## Request bodies (R216) -/

def presenceEntryChars (e : PresenceEntry) : List Byte :=
  numChars 2 e.service ++ numChars 1 (toCode bitCodes e.healthy) ++ numChars 4 e.mainRev

def takePresenceEntry (bs : List Byte) : Option (PresenceEntry × List Byte) := do
  let (s, bs) ← takeNum 2 bs
  let (h, bs) ← takeNum 1 bs
  let (r, bs) ← takeNum 4 bs
  pure (⟨s, ofCode bitCodes h, r⟩, bs)

/-- Bit `i` of a keep mask: set for "keep". -/
def keepBit {α : Type} (i : Nat) : Keep α → Nat
  | .keep => 2 ^ i
  | .give _ => 0

/-- A value under bit `i` of a keep mask, or "keep". -/
def keepOf {α : Type} (mask i : Nat) (v : α) : Keep α :=
  if mask / 2 ^ i % 2 = 1 then .keep else .give v

/-- The value a keep field sends: that of a kept parameter is passed over, and is sent as 0. -/
def Keep.sent {α : Type} (code : α → Nat) : Keep α → Nat
  | .keep => 0
  | .give v => code v

def houseChars (f : HouseFields) : List Byte :=
  numChars 1 (keepBit 0 f.rate + keepBit 1 f.linkTimeout + keepBit 2 f.autoTimeout + keepBit 3 f.leaseTimeout +
    keepBit 4 f.holdLimit + keepBit 5 f.freeze + (if f.reserved then 64 else 0)) ++
  numChars 1 (f.rate.sent (toCode rateCodes)) ++ numChars 2 (f.linkTimeout.sent id) ++
  numChars 2 (f.autoTimeout.sent id) ++ numChars 2 (f.leaseTimeout.sent id) ++ numChars 3 (f.holdLimit.sent id) ++
  numChars 1 (f.freeze.sent (toCode yesNoCodes))

def takeHouse (bs : List Byte) : Option (HouseFields × List Byte) := do
  let (mask, bs) ← takeNum 1 bs
  let (rate, bs) ← takeNum 1 bs
  let (link, bs) ← takeNum 2 bs
  let (auto, bs) ← takeNum 2 bs
  let (lease, bs) ← takeNum 2 bs
  let (hold, bs) ← takeNum 3 bs
  let (freeze, bs) ← takeNum 1 bs
  pure ({ reserved := decide (64 ≤ mask), rate := keepOf mask 0 (ofCode rateCodes rate),
          linkTimeout := keepOf mask 1 link, autoTimeout := keepOf mask 2 auto, leaseTimeout := keepOf mask 3 lease,
          holdLimit := keepOf mask 4 hold, freeze := keepOf mask 5 (ofCode yesNoCodes freeze) }, bs)

def channelChars (f : ChannelFields) : List Byte :=
  numChars 2 f.channel ++ numChars 1 (toCode yesNoCodes f.inService) ++
  numChars 2 (keepBit 0 f.serviceId + keepBit 1 f.preferred + keepBit 2 f.policy + keepBit 3 f.guard +
    keepBit 4 f.cueLead + keepBit 5 f.horizon + keepBit 6 f.lagLimit + keepBit 7 f.retention + keepBit 8 f.quota +
    (if f.reserved then 512 else 0)) ++
  numChars 2 (f.serviceId.sent id) ++ numChars 1 (f.preferred.sent drPortCode) ++
  (match f.policy with
    | .keep => List.replicate 16 (0 : Byte)
    | .give p => p.map (fun a => BitVec.ofNat 8 (toCode actionCodes a))) ++
  numChars 3 (f.guard.sent id) ++ numChars 2 (f.cueLead.sent id) ++ numChars 2 (f.horizon.sent id) ++
  numChars 3 (f.lagLimit.sent id) ++ numChars 2 (f.retention.sent id) ++ numChars 2 (f.quota.sent id)

def takeChannel (bs : List Byte) : Option (ChannelFields × List Byte) := do
  let (channel, bs) ← takeNum 2 bs
  let (setting, bs) ← takeNum 1 bs
  let (mask, bs) ← takeNum 2 bs
  let (service, bs) ← takeNum 2 bs
  let (preferred, bs) ← takeNum 1 bs
  let (policy, bs) ← takeChars 16 bs
  let (guard, bs) ← takeNum 3 bs
  let (lead, bs) ← takeNum 2 bs
  let (horizon, bs) ← takeNum 2 bs
  let (lag, bs) ← takeNum 3 bs
  let (retention, bs) ← takeNum 2 bs
  let (quota, bs) ← takeNum 2 bs
  pure ({ channel := channel, inService := ofCode yesNoCodes setting, reserved := decide (512 ≤ mask),
          serviceId := keepOf mask 0 service, preferred := keepOf mask 1 (drPortOf preferred),
          policy := keepOf mask 2 (policy.map (ofCode actionCodes)), guard := keepOf mask 3 guard,
          cueLead := keepOf mask 4 lead, horizon := keepOf mask 5 horizon, lagLimit := keepOf mask 6 lag,
          retention := keepOf mask 7 retention, quota := keepOf mask 8 quota }, bs)

def openChars (f : OpenFields) : List Byte :=
  numChars 2 f.channel ++ numChars 1 (toCode batchKindCodes f.kind) ++
  (match f.base with | some r => numChars 4 r | none => [])

def takeOpen (bs : List Byte) : Option (OpenFields × List Byte) := do
  let (channel, bs) ← takeNum 2 bs
  let (kind, bs) ← takeNum 1 bs
  let kind := ofCode batchKindCodes kind
  let (base, bs) ← if kind = some .resync then some (none, bs) else (takeNum 4 bs).map (fun r => (some r.1, r.2))
  pure (⟨channel, kind, base⟩, bs)

def addChars (f : AddFields) : List Byte :=
  numChars 2 f.channel ++ numChars 1 (f.entries.length + (if f.badKind then 1 else 0)) ++
  f.entries.flatMap entryChars ++ (if f.badKind then numChars 1 254 else [])

def takeAdd (bs : List Byte) : Option (AddFields × List Byte) := do
  let (channel, bs) ← takeNum 2 bs
  let (n, bs) ← takeNum 1 bs
  let (es, bs) ← takeEntries n bs
  pure (⟨channel, es.1, es.2⟩, bs)

def closeChars (f : CloseFields) : List Byte :=
  numChars 2 f.channel ++ (match f.declared with | some r => numChars 4 r | none => [])

def takeClose (p : Port) (bs : List Byte) : Option (CloseFields × List Byte) := do
  let (channel, bs) ← takeNum 2 bs
  let (declared, bs) ← if p = .L then (takeNum 4 bs).map (fun r => (some r.1, r.2)) else some (none, bs)
  pure (⟨channel, declared⟩, bs)

def readChars (f : ReadFields) : List Byte :=
  numChars 2 f.channel ++ numChars 4 (f.start.getD 0) ++ numChars 1 f.count

def takeRead (bs : List Byte) : Option (ReadFields × List Byte) := do
  let (channel, bs) ← takeNum 2 bs
  let (id, bs) ← takeNum 4 bs
  let (count, bs) ← takeNum 1 bs
  pure (⟨channel, optId id, count⟩, bs)

def cursorChars (f : CursorFields) : List Byte :=
  numChars 2 f.channel ++ (match f.frame with
    | .now => numChars 1 0
    | .time t => numChars 1 1 ++ schedChars t
    | .bad => numChars 1 254)

def takeCursor (bs : List Byte) : Option (CursorFields × List Byte) := do
  let (channel, bs) ← takeNum 2 bs
  let (sel, bs) ← takeNum 1 bs
  if sel = 0 then pure (⟨channel, .now⟩, bs)
  else if sel = 1 then
    let (t, bs) ← takeSched bs
    pure (⟨channel, .time t⟩, bs)
  else pure (⟨channel, .bad⟩, bs)

def takeTake (bs : List Byte) : Option (TakeFields × List Byte) := do
  let (channel, bs) ← takeNum 2 bs
  let (mode, bs) ← takeNum 1 bs
  pure (⟨channel, ofCode modeCodes mode⟩, bs)

def takeReady (bs : List Byte) : Option (ReadyFields × List Byte) := do
  let (channel, bs) ← takeNum 2 bs
  let (n, bs) ← takeNum 2 bs
  pure (⟨channel, n⟩, bs)

def takeRelease (bs : List Byte) : Option (ReleaseFields × List Byte) := do
  let (channel, bs) ← takeNum 2 bs
  let (t, bs) ← takeSched bs
  pure (⟨channel, t⟩, bs)

def takeReturn (bs : List Byte) : Option (ReturnFields × List Byte) := do
  let (channel, bs) ← takeNum 2 bs
  let (t, bs) ← takeSched bs
  let (id, bs) ← takeNum 4 bs
  let (o, bs) ← takeNum 4 bs
  pure (⟨channel, t, id, o⟩, bs)

def armChars (f : ArmFields) : List Byte :=
  numChars 1 (toCode armCodes f.op) ++ numChars 1 f.slots.length ++ f.slots.flatMap (numChars 1)

def takeArm (bs : List Byte) : Option (ArmFields × List Byte) := do
  let (op, bs) ← takeNum 1 bs
  let (n, bs) ← takeNum 1 bs
  let (slots, bs) ← takeMany (takeNum 1) n bs
  pure (⟨ofCode armCodes op, slots⟩, bs)

def matchChars (f : MatchFields) : List Byte :=
  numChars 1 (patCode custodyCodes f.state) ++ numChars 1 (patCode portCodes f.custodian) ++
  numChars 1 (patCode outputCodes f.output) ++ numChars 1 (patCode bitCodes f.m) ++
  numChars 1 (patCode bitCodes f.s) ++ numChars 1 (patCode bitCodes f.l) ++ numChars 1 (patCode bitCodes f.a) ++
  numChars 1 (patCode yesNoCodes f.held) ++ numChars 1 (patCode yesNoCodes f.inFlight) ++
  numChars 1 (patCode portCodes f.holder)

def takeMatch (bs : List Byte) : Option (MatchFields × List Byte) := do
  let (st, bs) ← takeNum 1 bs
  let (cu, bs) ← takeNum 1 bs
  let (out, bs) ← takeNum 1 bs
  let (m, bs) ← takeNum 1 bs
  let (s, bs) ← takeNum 1 bs
  let (l, bs) ← takeNum 1 bs
  let (a, bs) ← takeNum 1 bs
  let (held, bs) ← takeNum 1 bs
  let (fl, bs) ← takeNum 1 bs
  let (ho, bs) ← takeNum 1 bs
  pure ({ state := patOf custodyCodes st, custodian := patOf portCodes cu, output := patOf outputCodes out,
          m := patOf bitCodes m, s := patOf bitCodes s, l := patOf bitCodes l, a := patOf bitCodes a,
          held := patOf yesNoCodes held, inFlight := patOf yesNoCodes fl, holder := patOf portCodes ho }, bs)

/-- In a set, a slot takes one character and a service ID two (R216). -/
def memberSize (p : Port) : Nat := if p = .L then 2 else 1

def asRunChars (p : Port) (f : AsRunFields) : List Byte :=
  numChars 1 f.count ++ (match f.set with
    | .all => numChars 1 0
    | .members ms => numChars 1 1 ++ numChars 1 ms.length ++ ms.flatMap (numChars (memberSize p))
    | .bad => numChars 1 254)

def takeAsRun (p : Port) (bs : List Byte) : Option (AsRunFields × List Byte) := do
  let (count, bs) ← takeNum 1 bs
  let (flag, bs) ← takeNum 1 bs
  if flag = 0 then pure (⟨count, .all⟩, bs)
  else if flag = 1 then
    let (n, bs) ← takeNum 1 bs
    let (ms, bs) ← takeMany (takeNum (memberSize p)) n bs
    pure (⟨count, .members ms⟩, bs)
  else pure (⟨count, .bad⟩, bs)

def takeMark (bs : List Byte) : Option (MarkFields × List Byte) := do
  let (v, bs) ← takeNum 6 bs
  let (f, bs) ← takeNum 1 bs
  pure (⟨v, ofCode yesNoCodes f⟩, bs)

def clearChars (f : ClearFields) : List Byte :=
  numChars 1 f.slots.length ++ f.slots.flatMap (numChars 1) ++ numChars 1 (toCode yesNoCodes f.capture)

def takeClear (bs : List Byte) : Option (ClearFields × List Byte) := do
  let (n, bs) ← takeNum 1 bs
  let (slots, bs) ← takeMany (takeNum 1) n bs
  let (c, bs) ← takeNum 1 bs
  pure (⟨slots, ofCode yesNoCodes c⟩, bs)

/-- PRESENCE from Port L (R210). -/
def takePresence (bs : List Byte) : Option (List PresenceEntry × List Byte) := do
  let (n, bs) ← takeNum 1 bs
  takeMany takePresenceEntry n bs

/-- The command that a request frame of port `p` carries: its code looked up in the roles table of R207, and
its body divided by R216. -/
def decodeRequest (p : Port) (code tag : Nat) (bs : List Byte) : Instr :=
  let hd : Head := ⟨p, tag⟩
  match code with
  | 1 => .presence hd (if p = .L then whole (takePresence bs) else .fields [])
  | 2 => .portReset hd (whole (some ((), bs)))
  | 3 => .setTime hd (whole (takeSched bs))
  | 4 => .configureHouse hd (whole (takeHouse bs))
  | 5 => .configureChannel hd (whole (takeChannel bs))
  | 6 => .readChannel hd (whole (takeNum 2 bs))
  | 7 => .openBatch hd (whole (takeOpen bs))
  | 8 => .addEntries hd (whole (takeAdd bs))
  | 9 => .closeBatch hd (whole (takeClose p bs))
  | 10 => .abortBatch hd (whole (takeNum 2 bs))
  | 11 => .readEvents hd (whole (takeRead bs))
  | 12 => .readNextEvents hd (whole (takeNum 1 bs))
  | 13 => .readCursor hd (whole (takeCursor bs))
  | 14 => .take hd (whole (takeTake bs))
  | 15 => .cancelTake hd (whole (takeNum 2 bs))
  | 16 => .fetchCue hd (whole (takeNum 2 bs))
  | 17 => .cueReady hd (whole (takeReady bs))
  | 18 => .hold hd (whole (takeNum 2 bs))
  | 19 => .releaseHold hd (whole (takeRelease bs))
  | 20 => .handback hd (whole (takeReturn bs))
  | 21 => .cancelReturn hd (whole (takeNum 2 bs))
  | 22 => .arm hd (whole (takeArm bs))
  | 23 => .matchChannels hd (whole (takeMatch bs))
  | 24 => .readAsRun hd (whole (takeAsRun p bs))
  | 25 => .mark hd (whole (takeMark bs))
  | 26 => .readStatus hd (whole (some ((), bs)))
  | 27 => .readFaults hd (whole (some ((), bs)))
  | 28 => .clearFaults hd (whole (takeClear bs))
  | _ => .unknownRequest hd code

/-- The characters of a body: those of its fields, or, for a misfit, `wrong`, a body its layout cannot divide. -/
def bodyChars {α : Type} (wrong : List Byte) (f : α → List Byte) : Body α → List Byte
  | .fields a => f a
  | .misfit => wrong

/-- The head, request code and body characters of a request; none for a command that is no request. -/
def encodeRequest : Instr → Option (Head × Nat × List Byte)
  | .presence hd b => some (hd, 1, match hd.port with
      | .L => bodyChars [] (fun es => numChars 1 es.length ++ es.flatMap presenceEntryChars) b
      | _ => [])
  | .portReset hd b => some (hd, 2, bodyChars [0] (fun _ => []) b)
  | .setTime hd b => some (hd, 3, bodyChars [] schedChars b)
  | .configureHouse hd b => some (hd, 4, bodyChars [] houseChars b)
  | .configureChannel hd b => some (hd, 5, bodyChars [] channelChars b)
  | .readChannel hd b => some (hd, 6, bodyChars [] (numChars 2) b)
  | .openBatch hd b => some (hd, 7, bodyChars [] openChars b)
  | .addEntries hd b => some (hd, 8, bodyChars [] addChars b)
  | .closeBatch hd b => some (hd, 9, bodyChars [] closeChars b)
  | .abortBatch hd b => some (hd, 10, bodyChars [] (numChars 2) b)
  | .readEvents hd b => some (hd, 11, bodyChars [] readChars b)
  | .readNextEvents hd b => some (hd, 12, bodyChars [] (numChars 1) b)
  | .readCursor hd b => some (hd, 13, bodyChars [] cursorChars b)
  | .take hd b => some (hd, 14, bodyChars [] (fun f => numChars 2 f.channel ++ numChars 1 (toCode modeCodes f.mode)) b)
  | .cancelTake hd b => some (hd, 15, bodyChars [] (numChars 2) b)
  | .fetchCue hd b => some (hd, 16, bodyChars [] (numChars 2) b)
  | .cueReady hd b => some (hd, 17, bodyChars [] (fun f => numChars 2 f.channel ++ numChars 2 f.number) b)
  | .hold hd b => some (hd, 18, bodyChars [] (numChars 2) b)
  | .releaseHold hd b => some (hd, 19, bodyChars [] (fun f => numChars 2 f.channel ++ schedChars f.tEnd) b)
  | .handback hd b => some (hd, 20, bodyChars []
      (fun f => numChars 2 f.channel ++ schedChars f.frame ++ numChars 4 f.eventId ++ numChars 4 f.offset) b)
  | .cancelReturn hd b => some (hd, 21, bodyChars [] (numChars 2) b)
  | .arm hd b => some (hd, 22, bodyChars [] armChars b)
  | .matchChannels hd b => some (hd, 23, bodyChars [] matchChars b)
  | .readAsRun hd b => some (hd, 24, bodyChars [] (asRunChars hd.port) b)
  | .mark hd b => some (hd, 25, bodyChars [] (fun f => numChars 6 f.value ++ numChars 1 (toCode yesNoCodes f.follow)) b)
  | .readStatus hd b => some (hd, 26, bodyChars [0] (fun _ => []) b)
  | .readFaults hd b => some (hd, 27, bodyChars [0] (fun _ => []) b)
  | .clearFaults hd b => some (hd, 28, bodyChars [] clearChars b)
  | .unknownRequest hd code => some (hd, code, [])
  | _ => none

/-! ## Frames on the line (R204, R205) -/

/-- One bit of the cyclic check x^16 + x^12 + x^5 + 1. -/
def crcShift (c : BitVec 16) : BitVec 16 :=
  if c.msb then (c <<< 1) ^^^ 0x1021#16 else c <<< 1

/-- One character of the cyclic check, most significant bit first. -/
def crcChar (c : BitVec 16) (b : Byte) : BitVec 16 :=
  crcShift (crcShift (crcShift (crcShift (crcShift (crcShift (crcShift (crcShift
    (c ^^^ (b.setWidth 16 <<< 8)))))))))

/-- The cyclic check of a run of characters, starting from all ones (R204). -/
def crc (bs : List Byte) : BitVec 16 := bs.foldl crcChar 0xFFFF#16

/-- The characters the check sequence covers: body length, code, tag and body. -/
def checkedChars (code tag : Nat) (body : List Byte) : List Byte :=
  numChars 2 body.length ++ numChars 1 code ++ numChars 1 tag ++ body

/-- A request frame (R215). -/
def requestFrame (code tag : Nat) (body : List Byte) : List Byte :=
  195#8 :: (checkedChars code tag body ++ numChars 2 (crc (checkedChars code tag body)).toNat)

/-- What a receive line shows: a character with or without a valid stop bit, an idle time of more than 4
character times, a space level of 20 character times, or the return to mark after it. -/
inductive LineEvent where
  | char (value : Byte) (stopBit : Bool)
  | idle
  | space
  | toMark
  deriving DecidableEq, Repr

/-- The body length a partly received frame states, once both its characters are there. -/
def statedLength : List Byte → Option Nat
  | a :: b :: _ => some (a.toNat * 256 + b.toNat)
  | _ => none

/-- A frame complete with its check sequence: the request it carries, or the bad frame it is. -/
def completeFrame (p : Port) (cs : List Byte) : Instr :=
  let covered := cs.take (cs.length - 2)
  if numChars 2 (crc covered).toNat = cs.drop (cs.length - 2) then
    match covered with
    | _ :: _ :: code :: tag :: body => decodeRequest p code.toNat tag.toNat body
    | _ => .badFrame p .check
  else .badFrame p .check

/-- One more good character of a frame (R204): a body length above 2,048 is known as soon as it is received,
and the frame is taken at its last check character. -/
def frameChar (p : Port) (cs : List Byte) : Receive × Option Instr :=
  match statedLength cs with
  | none => (.inFrame cs, none)
  | some n =>
    if 2048 < n then (.discarding, some (.badFrame p .length))
    else if cs.length < n + 6 then (.inFrame cs, none)
    else (.hunting, some (completeFrame p cs))

/-- What one event of port `p`'s receive line does to the Port Unit's reception, and the command that comes
about by it (R204, R205, R212).  An opening character without a valid stop bit opens no frame, and the hunt discards it
(DESIGN CHOICE, log entry 47). -/
def receiveLine (p : Port) (st : Receive) (e : LineEvent) : Receive × Option Instr :=
  match st, e with
  | .inBreak, .toMark => (.hunting, some (.lineReturnsToMark p))
  | .inBreak, _ => (.inBreak, none)
  | _, .space => (.inBreak, some (.lineBreak p))
  | .hunting, .char v ok => (if v = 195#8 && ok then .inFrame [] else .hunting, none)
  | .hunting, _ => (.hunting, none)
  | .inFrame cs, .char v ok => if ok then frameChar p (cs ++ [v]) else (.hunting, some (.badFrame p .stopBit))
  | .inFrame _, .idle => (.hunting, some (.badFrame p .gap))
  | .inFrame cs, .toMark => (.inFrame cs, none)
  | .discarding, .idle => (.hunting, some (.lineIdle p))
  | .discarding, _ => (.discarding, none)

/-- A run of line events: the reception after it and the commands that came about, in order. -/
def receiveAll (p : Port) : Receive → List LineEvent → Receive × List Instr
  | st, [] => (st, [])
  | st, e :: es =>
    match receiveLine p st e with
    | (st1, some c) => let r := receiveAll p st1 es; (r.1, c :: r.2)
    | (st1, none) => receiveAll p st1 es

end Sys2Proof
end

