-- ==== Sys2Proof/Config.lean ====
section
/-! DEFINITION. What the spec fixes for every part, by the rule that fixes it, and the sizes it leaves
open. -/

namespace Sys2Proof.Config

/-- Slots of the event pool (R20). -/
abbrev poolSlots : Nat := 8192
/-- Staging buffers (R82). -/
abbrev stagingBuffers : Nat := 8
/-- Entries one staging buffer holds (R88). -/
abbrev bufferEntries : Nat := 64
/-- Entries of the as-run ring (R162). -/
abbrev ringEntries : Nat := 2048
/-- The last sequence number of 48 bits (R172). -/
abbrev lastSequence : Nat := 281474976710655
/-- The greatest 32-bit revision (R31). -/
abbrev lastRevision : Nat := 4294967295
/-- The highest day number (R10). -/
abbrev lastDay : Nat := 65535
/-- The greatest cue number and update count (R130, R131). -/
abbrev lastCue : Nat := 65535
/-- Events, and as-run entries, one read returns at most (R35, R37, R174). -/
abbrev readLimit : Nat := 16
/-- Attempts of one takeover (R145). -/
abbrev attempts : Nat := 3
/-- Protected ids one READ CURSOR reply names at most (R59). -/
abbrev protectedShown : Nat := 64

/-- The size, in characters, of the `n`-th reply quantity that no request, record or entry of R215 and
R216 carries, or of what stands for a record that is absent, so that the spec gives it no size.  A FREE VALUE: the
constant has no body (log entry 14).
It is used by the reply layout alone; no step of the machine reads it. -/
opaque unstatedSize : Nat → Nat

/-- The value that marks the `n`-th case of a reply for which the spec states no marking: a sequence number, a
capture record or an outcome that is none, a pool still initialising, a hold that is not held.  A FREE VALUE (log
entry 14). -/
opaque unstatedMark : Nat → Nat

end Sys2Proof.Config
end

