-- ==== Sys2Proof/Machine/State.lean ====
section
/-! DEFINITION. Everything the spec gives the part to hold, block by block, and the state after device
reset. -/

namespace Sys2Proof.Machine

/-! ## Reference Counter (House Time) -/

/-- The reference state (R4). -/
inductive RefState where
  | unset | locked | flywheel
  deriving DecidableEq, Repr

/-- What produced a frame arrival (R2). -/
inductive ArrivalSource where
  | pulse | timebase
  deriving DecidableEq, Repr

/-- The last frame arrival: its time and its source (R2). -/
structure LastArrival where
  moment : Nat
  source : ArrivalSource
  deriving DecidableEq, Repr

/-- A pending time set (R17).  `tag` is that of the SET TIME still to be answered. -/
structure PendingSet where
  frame : Nat
  port : Port
  tag : Nat
  adjusted : Bool
  deriving DecidableEq, Repr

/-- The Reference Counter (R2). -/
structure Reference where
  refState : RefState
  h : Nat
  last : Option LastArrival
  pendingSet : Option PendingSet
  deriving DecidableEq, Repr

/-- A frame as the part reports it: H, with its day and timecode unless the day exceeds 65,535 (R10, R59). -/
structure FrameField where
  h : Nat
  label : Option SchedTime
  deriving DecidableEq, Repr

/-! ## Channel Table -/

/-- The house parameters (R180). -/
structure HouseParams where
  rate : HouseRate
  linkTimeout : Nat
  autoTimeout : Nat
  leaseTimeout : Nat
  holdLimit : Nat
  freeze : Bool
  deriving DecidableEq, Repr

/-- The channel parameters (R181).  `policy` holds the action of each of the 16 indices in order. -/
structure ChannelParams where
  serviceId : Option Nat
  preferred : DrPort
  policy : List PolicyAction
  guard : Nat
  cueLead : Nat
  horizon : Nat
  lagLimit : Nat
  retention : Nat
  quota : Nat
  deriving DecidableEq, Repr

/-! ## Mirror Store -/

/-- How a FIXED event joins its predecessor: CUT, or JOIN, here `late` (R27). -/
inductive Join where
  | cut | late
  deriving DecidableEq, Repr

/-- A stored start mode, with the fixed start and join of a FIXED event (R27). -/
inductive StartMode where
  | follow
  | fixed (frame : Nat) (join : Join)
  deriving DecidableEq, Repr

/-- A stored kind, with the fields R27 gives it. -/
inductive Content where
  | clip (mediaId : List Nat) (inPoint : Nat)
  | live (source : Nat)
  deriving DecidableEq, Repr

/-- An event record (R27). -/
structure EventRec where
  id : Nat
  start : StartMode
  nominal : Nat
  content : Content
  secondaries : List Secondary
  holdEnd : Option Nat
  writtenRev : Nat
  deriving DecidableEq, Repr

/-! ## Timeline Resolver -/

/-- Resolution states (R39). -/
inductive ResState where
  | resolved | skipped | unresolved | suspended
  deriving DecidableEq, Repr

/-- A resolved duration: absent, open (the held event), or a count of frames (R39, R50). -/
inductive Dur where
  | absent
  | open
  | frames (n : Nat)
  deriving DecidableEq, Repr

/-- A resolved secondary (R53); a duration of none is open-ended. -/
structure ResolvedSecondary where
  trigger : Nat
  start : Nat
  duration : Option Nat
  deriving DecidableEq, Repr

/-- The resolved fields of one event (R39). -/
structure Resolved where
  state : ResState
  start : Option Nat
  duration : Dur
  lateness : Option Nat
  gapAfter : Option Nat
  secondaries : List ResolvedSecondary
  deriving DecidableEq, Repr

/-- The state of a secondary at a frame (R56). -/
inductive SecondaryState where
  | upcoming | active
  deriving DecidableEq, Repr

/-- A secondary as a cursor carries it (R56); frames of none are open. -/
structure CursorSecondary where
  trigger : Nat
  state : SecondaryState
  frames : Option Nat
  deriving DecidableEq, Repr

/-- The fields of an EVENT cursor (R55); a remaining of none is open. -/
structure EventCursor where
  id : Nat
  content : Content
  offset : Nat
  remaining : Option Nat
  lateness : Nat
  mediaPosition : Option Nat
  next : Option Nat
  secondaries : List CursorSecondary
  deriving DecidableEq, Repr

/-- A cursor, of one of the five kinds of R54 with the fields of R55. -/
inductive Cursor where
  | noTimeline
  | event (c : EventCursor)
  | gap (next : Nat) (state : ResState) (until_ : Nat)
  | before (first : Nat) (state : ResState) (until_ : Nat)
  | ended (last : Nat) (since : Nat)
  deriving DecidableEq, Repr

/-- One event of a protected set (R60); `contents` carries written revision 0, which is not part of a
record's contents (R30). -/
structure ProtEntry where
  contents : EventRec
  start : Option Nat
  duration : Dur
  deriving DecidableEq, Repr

/-- The hold record of a held channel (R65).  A timer of 0 is an expiry not yet taken (log entry 3). -/
structure HoldRec where
  eventId : Nat
  timer : Nat
  deriving DecidableEq, Repr

/-! ## Batch Engine -/

/-- The state of a batch (R82): OPEN with its lease timer, or SEALED with the declared source revision and,
while its CLOSE BATCH is unanswered and not abandoned, the tag of that request. -/
inductive BatchPhase where
  | opened (timer : Nat)
  | sealed (declared : Option Nat) (replyTag : Option Nat)
  deriving DecidableEq, Repr

/-- A batch in its staging buffer (R82).  The channel is the one whose state holds it. -/
structure Batch where
  port : Port
  kind : BatchKind
  base : Option Nat
  entries : List Entry
  received : Nat
  overrun : Bool
  phase : BatchPhase
  deriving DecidableEq, Repr

/-- Reply statuses, in the order of R214. -/
inductive Status where
  | ok | adjusted | busy | portBusy | badFrame | unknownRequest | notPermitted | badField | badTime
  | timeUnset | unknownChannel | unknownService | notInService | channelActive | duplicateService
  | configInvalid | leaseHeld | noBuffer | noBatch | revisionGap | batchOverrun | duplicateId | notFound
  | protected_ | quota | state | notCustodian | notTarget | staleCue | cursorMismatch | asRunPending | held
  | notLive | positionLost
  deriving DecidableEq, Repr

/-- Kinds of a batch entry, as a refusal reports them (R98). -/
inductive EntryKind where
  | insert | replace | delete
  deriving DecidableEq, Repr

/-- The details a refused commit's reply gives with its check (R97 to R101). -/
inductive RefusalDetail where
  | none
  | entry (index : Nat) (kind : EntryKind) (eventId : Nat)
  | quota (trialLength quota : Nat)
  | protected_ (eventId : Nat) (start trialStart : Option Nat) (duration trialDuration : Dur)
  deriving DecidableEq, Repr

/-- What the validation of a completion under way has decided (R97 to R101). -/
inductive CommitResult where
  | passed (adjusted dropped : Nat)
  | refused (status : Status) (detail : RefusalDetail) (dropped : Nat)
  deriving DecidableEq, Repr

/-- The step a completion under way has come to.  After step 1 of R103 the Mirror Store holds the new list, which
the resolver has still to resolve; after its step 2, or step 1 of R102, the deferred retirement comes next; after
that the Custody Controller and the end of the batch. -/
inductive CompletionStage where
  | stored (events : List EventRec)
  | resolved
  | retired
  deriving DecidableEq, Repr

/-- A completion of which some steps are taken and some are not (R105): its stage, the source revision and stale
flag it leaves, the length and mirror revision from before the commit, which READ CHANNEL shows until the batch ends
(R95), and its result. -/
structure Completion where
  stage : CompletionStage
  sourceRev : Nat
  stale : Bool
  lengthBefore : Nat
  revBefore : Nat
  result : CommitResult
  deriving DecidableEq, Repr

/-! ## Custody Controller -/

/-- Origins of a takeover (R107). -/
inductive Origin where
  | policy | manual | swap
  deriving DecidableEq, Repr

/-- Outcomes of an evaluation (R117). -/
inductive EvalOutcome where
  | none | notified | takeStarted | noTarget | timeUnset
  deriving DecidableEq, Repr

/-- The last evaluation record (R117); `frame` is none while UNSET. -/
structure Evaluation where
  frame : Option Nat
  index : Nat
  action : PolicyAction
  outcome : EvalOutcome
  deriving DecidableEq, Repr

/-- Cue states (R130). -/
inductive CueState where
  | computing | issued | ready
  deriving DecidableEq, Repr

/-- The part of a cue record that the cursor decides (R133, R134). -/
inductive CueBody where
  | event (c : EventCursor) (held : Bool)
  | gap (before : Bool) (next : Nat) (state : ResState) (until_ : Nat)
  | ended (last : Nat) (since : Nat)
  | noTimeline
  deriving DecidableEq, Repr

/-- The cue of a TAKING channel (R130, R134); a COMPUTING cue has no body (R136). -/
structure Cue where
  number : Nat
  switchFrame : Nat
  state : CueState
  updates : Nat
  body : Option CueBody
  deriving DecidableEq, Repr

/-- The takeover record (R107, R130). -/
structure Takeover where
  prevState : CustodyState
  prevOutput : Output
  origin : Origin
  mode : TakeMode
  firstChoice : DrPort
  target : DrPort
  attempt : Nat
  cue : Cue
  deriving DecidableEq, Repr

/-- The return record (R149).  The returning output is the channel's output, which stands until T's arrival. -/
structure ReturnRec where
  frame : Nat
  eventId : Nat
  offset : Nat
  acceptedAt : Nat
  markAtAcceptance : Nat
  latestAtAcceptance : Nat
  output : Output
  deriving DecidableEq, Repr

/-- The custody record of an in-service channel (R107, R130).  `a` is the channel's membership of the arm
set (R114).  `switchDue` is the model's own: an arrival that reaches the switch frame has come and the
Custody Controller's decision on it is still to be taken (log entry 4). -/
structure Custody where
  state : CustodyState
  custodian : Option Port
  output : Output
  m : Bool
  s : Bool
  l : Bool
  a : Bool
  healthy : Bool
  mainRev : Option Nat
  behind : Option Nat
  lastEval : Option Evaluation
  cueCounter : Nat
  takeover : Option Takeover
  ret : Option ReturnRec
  switchDue : Bool
  deriving DecidableEq, Repr

/-! ## As-Run Log -/

/-- An open segment (R165). -/
structure Segment where
  eventId : Nat
  firstFrame : Nat
  firstOffset : Nat
  output : Output
  deriving DecidableEq, Repr

/-- Reasons of a SWITCH entry (R164). -/
inductive SwitchReason where
  | policy | manual | swap | cueMiss | cancel | return_ | custodianLost
  deriving DecidableEq, Repr

/-- The kind of an as-run entry, with its further fields (R164). -/
inductive EntryBody where
  | aired (eventId firstFrame firstOffset framesAired : Nat) (output : Output)
  | skipped (eventId : Nat)
  | switch (fromOutput toOutput : Output) (reason : SwitchReason) (cue : Option Nat)
  deriving DecidableEq, Repr

/-- An as-run entry (R164). -/
structure LogEntry where
  seq : Nat
  slot : Nat
  service : Nat
  frame : Nat
  rate : HouseRate
  body : EntryBody
  deriving DecidableEq, Repr

/-- The As-Run Log (R162).  The ring stands oldest entry first.  The full flag is set exactly when the next
sequence number is none (R172). -/
structure AsRun where
  ring : List LogEntry
  nextSeq : Option Nat
  dropped : Nat
  deriving DecidableEq, Repr

/-! ## Fault Capture -/

/-- Fault classes, highest priority first (R193). -/
inductive FaultClass where
  | safeEntry | mirrorStale | custodianAbsent | cueMissed | returnCancelled | holdLimit | leaseExpired
  | refLost | lineError
  deriving DecidableEq, Repr

/-- Causes of a miss (R145). -/
inductive MissCause where
  | notReady | computing | targetLost | noTarget
  deriving DecidableEq, Repr

/-- Causes of LINE_ERROR (R193). -/
inductive LineErrorCause where
  | badFrame | linkAbsent | logFull
  deriving DecidableEq, Repr

/-- The detail of a fault report (R193). -/
inductive FaultDetail where
  | none
  | cueNumber (n : Nat)
  | refusal (s : Status)
  | miss (cue attempt : Nat) (cause : MissCause)
  | returnFrame (t : Nat)
  | heldEvent (id : Nat)
  | line (cause : LineErrorCause)
  deriving DecidableEq, Repr

/-- A captured fault (R196); `channel` is the slot with its service ID at capture. -/
structure Capture where
  cls : FaultClass
  channel : Option (Nat × Nat)
  port : Option Port
  frame : Option Nat
  detail : FaultDetail
  repeated : Bool
  frozen : Bool
  deriving DecidableEq, Repr

/-! ## An in-service channel -/

/-- The state that the blocks keep for a channel while it is in service (R188). -/
structure Live where
  /-- Mirror Store: the event list, in running order (R24). -/
  events : List EventRec
  /-- Mirror Store: mirror revision (R31). -/
  mirrorRev : Nat
  /-- Mirror Store: source revision (R32). -/
  sourceRev : Nat
  /-- Mirror Store: stale flag (R33). -/
  stale : Bool
  /-- Timeline Resolver: the resolved fields of each event of the list (R39). -/
  timeline : List Resolved
  /-- Timeline Resolver: the channel anchor (R39). -/
  anchor : Option Nat
  /-- Timeline Resolver: the timeline revision (R39). -/
  timelineRev : Nat
  /-- Timeline Resolver: the protected set as last drawn (R60, R61). -/
  protectedSet : List ProtEntry
  /-- Timeline Resolver: the followed cursor, none while UNSET (R65). -/
  followed : Option Cursor
  /-- Timeline Resolver: the hold record, none when not held (R65). -/
  hold : Option HoldRec
  /-- Batch Engine: the batch of the lease's holder; none is a lease without holder (R81, R83). -/
  batch : Option Batch
  /-- Batch Engine: the completion under way, none while no step of one has been taken (R105). -/
  completion : Option Completion
  /-- Custody Controller: the custody record (R107). -/
  custody : Custody
  /-- As-Run Log: the open segment (R165). -/
  segment : Option Segment
  /-- As-Run Log: the latest sequence number (R171). -/
  latestSeq : Nat
  /-- Fault Capture: the flag set (R195). -/
  flags : List FaultClass
  deriving DecidableEq, Repr

/-- One of the 32 channel entries: its parameters, kept in and out of service, and its state while in
service.  The in-service flag of R179 is `live` being present. -/
structure Channel where
  params : ChannelParams
  live : Option Live
  deriving DecidableEq, Repr

/-! ## Port Units -/

/-- The event reasons of an attention set (R201). -/
structure EventReasons where
  custodyChanged : Bool
  policyNotice : Bool
  fault : Bool
  returnPending : Bool
  deriving DecidableEq, Repr

/-- A whole attention set, the condition reasons included (R201). -/
structure Attention where
  cuePending : Bool
  custodyChanged : Bool
  policyNotice : Bool
  fault : Bool
  returnPending : Bool
  asRunWaiting : Bool
  deriving DecidableEq, Repr

/-- A port's read position (R38); `event` is none for the start of the list. -/
structure ReadPos where
  slot : Slot
  event : Option Nat
  deriving DecidableEq, Repr

/-- A request whose reply is still to be sent: its code and tag (R206). -/
structure InProgress where
  code : Nat
  tag : Nat
  deriving DecidableEq, Repr

/-! ## Replies -/

/-- Which limit a QUOTA refusal of CONFIGURE CHANNEL met (R184), as a name and not as the limit's number (DESIGN CHOICE,
log entry 49). -/
inductive QuotaLimit where
  | sum | listLength
  deriving DecidableEq, Repr

/-- The mirror state at the head of a READ EVENTS reply (R36). -/
structure MirrorReport where
  slot : Nat
  service : Nat
  length : Nat
  quota : Nat
  mirrorRev : Nat
  sourceRev : Nat
  stale : Bool
  returned : Nat
  more : Bool
  deriving DecidableEq, Repr

/-- One event of a READ EVENTS reply (R36): its index, record and resolved fields, with every frame as
reported. -/
structure EventReport where
  index : Nat
  record : EventRec
  fixedStart : Option FrameField
  holdEnd : Option FrameField
  resolved : Resolved
  resolvedStart : Option FrameField
  deriving DecidableEq, Repr

/-- The reply to READ CURSOR (R59). -/
structure CursorReport where
  slot : Nat
  service : Nat
  frame : FrameField
  timelineRev : Nat
  inFlight : Bool
  heldEvent : Option Nat
  cursor : Cursor
  protectedCount : Nat
  protectedIds : List Nat
  protectedMore : Bool
  deriving DecidableEq, Repr

/-- A cue record as FETCH CUE returns it, with the cue state and update count (R134, R139), and the stored fixed
start of the event that identifies it, where that event is FIXED (R29, log entry 40). -/
structure CueReport where
  number : Nat
  slot : Nat
  service : Nat
  target : DrPort
  origin : Origin
  mode : TakeMode
  attempt : Nat
  switchFrame : FrameField
  body : CueBody
  state : CueState
  updates : Nat
  takenAt : Option FrameField
  fixedStart : Option FrameField
  deriving DecidableEq, Repr

/-- An as-run entry as READ AS-RUN returns it: every frame converted at the rate the entry records (R164). -/
structure AsRunEntryReport where
  entry : LogEntry
  frame : FrameField
  firstFrame : Option FrameField
  deriving DecidableEq, Repr

/-- The reply to READ AS-RUN (R175). -/
structure AsRunReport where
  entries : List AsRunEntryReport
  returned : Nat
  overwritten : Nat
  lastExamined : Option Nat
  mark : Nat
  follow : Bool
  newest : Nat
  oldest : Option Nat
  full : Bool
  dropped : Nat
  more : Bool
  deriving DecidableEq, Repr

/-- The takeover fields READ CHANNEL carries while TAKING (R192). -/
structure TakeoverReport where
  target : DrPort
  switchFrame : FrameField
  number : Nat
  state : CueState
  attempt : Nat
  deriving DecidableEq, Repr

/-- What READ CHANNEL carries for an in-service channel beside its configuration (R192). -/
structure LiveReport where
  length : Nat
  mirrorRev : Nat
  sourceRev : Nat
  stale : Bool
  freeSlots : Nat
  timelineRev : Nat
  anchor : Option FrameField
  hold : Option HoldRec
  holder : Option Port
  closing : Option Port
  custodian : Option Port
  output : Output
  m : Bool
  s : Bool
  l : Bool
  a : Bool
  healthy : Bool
  mainRev : Option Nat
  behind : Option FrameField
  lastEval : Option Evaluation
  evalFrame : Option FrameField
  cueCounter : Nat
  latestSeq : Nat
  segment : Option (Nat × Output)
  takeover : Option TakeoverReport
  ret : Option (FrameField × Nat × Nat)
  deriving DecidableEq, Repr

/-- The reply to READ CHANNEL (R191, R192). -/
structure ChannelReport where
  slot : Nat
  inService : Bool
  params : ChannelParams
  house : HouseParams
  quotaSum : Nat
  room : Nat
  state : CustodyState
  live : Option LiveReport
  deriving DecidableEq, Repr

/-- The reply to READ STATUS (R203); `freeSlots` is none while the store is initialising. -/
structure StatusReport where
  attention : Attention
  refState : RefState
  frame : Option FrameField
  freeSlots : Option Nat
  freeBuffers : Nat
  newest : Nat
  captured : Option (FaultClass × Bool)
  anyFlag : Bool
  inService : Nat
  deriving DecidableEq, Repr

/-- The reply to READ FAULTS (R199). -/
structure FaultsReport where
  capture : Option Capture
  captureFrame : Option FrameField
  freeze : Bool
  houseFlags : List FaultClass
  channels : List (Nat × Nat × List FaultClass)
  count : Nat
  deriving DecidableEq, Repr

/-- The body of a reply: the fields that each request's rule lists, in its order. -/
inductive ReplyBody where
  | empty
  /-- R210. -/
  | presence (counts : Option (Nat × Nat)) (timeout : Nat) (ref : RefState) (frame : Option FrameField)
  /-- R212. -/
  | attentionSet (a : Attention)
  /-- R18. -/
  | timeSet (frame : FrameField) (ref : RefState)
  /-- R183. -/
  | house (p : HouseParams) (ref : RefState)
  /-- R187, R188, R189. -/
  | configured (slot : Nat) (state : CustodyState) (p : ChannelParams) (quotaSum : Nat)
      (outcome : Option EvalOutcome) (returned : Option Nat)
  /-- R184, QUOTA. -/
  | quotaRefused (sum length : Nat) (limit : QuotaLimit)
  /-- R184, DUPLICATE_SERVICE. -/
  | serviceHeldBy (slot : Nat)
  /-- R192. -/
  | channel (r : ChannelReport)
  /-- R85. -/
  | batchOpened (slot service mirrorRev sourceRev leaseTimeout freeBuffers : Nat)
  /-- R84, LEASE_HELD, and R92. -/
  | leaseHolder (holder : Option Port)
  /-- R87. -/
  | entriesHeld (held received : Nat) (overrun : Bool)
  /-- R103. -/
  | committed (mirrorRev sourceRev length adjusted : Nat) (dropped : Option Nat)
  /-- R102. -/
  | commitRefused (detail : RefusalDetail) (mirrorRev sourceRev : Nat) (dropped : Option Nat)
  /-- R36. -/
  | events (m : MirrorReport) (es : List EventReport)
  /-- R59. -/
  | cursor (r : CursorReport)
  /-- R121. -/
  | taken (target : DrPort) (mode : TakeMode) (switchFrame : FrameField) (number : Nat) (state : CueState)
  /-- R122. -/
  | stateAfter (state : CustodyState)
  /-- R139, BUSY. -/
  | cueWait (number : Nat) (switchFrame : FrameField) (attempt : Nat)
  /-- R139. -/
  | cue (r : CueReport)
  /-- R140. -/
  | cueReady (number : Nat) (switchFrame : FrameField) (updates : Nat)
  /-- R140, STALE_CUE. -/
  | currentCue (number : Nat)
  /-- R76. -/
  | heldNow (eventId offset timer : Nat) (limit : FrameField)
  /-- R77. -/
  | notHeld
  /-- R78. -/
  | released (eventId : Nat) (tEnd : FrameField) (next : Option (ResState × Option FrameField))
  /-- R154. -/
  | returning (frame : FrameField) (eventId offset : Nat) (mediaPosition : Option Nat)
      (custodian : Option Port) (present : Bool) (mark latest : Nat)
  /-- R152. -/
  | asRunPending (mark latest newest : Nat)
  /-- R153. -/
  | cursorMismatch (c : Cursor) (frame : FrameField)
  /-- R156. -/
  | returnCancelled (frame : FrameField) (state : CustodyState)
  /-- R115. -/
  | armed (set dropped : List Nat) (outcomes : List (Nat × Option EvalOutcome))
  /-- R129. -/
  | matched (count : Nat) (channels : List (Nat × Nat))
  /-- R175. -/
  | asRun (r : AsRunReport)
  /-- R162, a READ AS-RUN that is not carried out. -/
  | asRunRefused (newest : Nat) (oldest : Option Nat) (full : Bool) (dropped : Nat)
  /-- R177. -/
  | marked (mark : Nat) (follow : Bool) (newest : Nat) (oldest : Option Nat)
  /-- R203. -/
  | status (r : StatusReport)
  /-- R199. -/
  | faults (r : FaultsReport)
  /-- R200. -/
  | cleared (slots : List Nat) (capture : Bool)
  /-- R200, BUSY. -/
  | busySlot (slot : Nat)
  deriving DecidableEq, Repr

/-- A reply frame (R215): the echoed code and tag, the status, the attention set as it stood when the reply
was formed, and the body. -/
structure Reply where
  code : Nat
  tag : Nat
  status : Status
  attention : Attention
  body : ReplyBody
  deriving DecidableEq, Repr

/-- A Port Unit, with the read position (R38), read mark and follow flag (R162) that other blocks keep for
the port.  `presence` is none when ABSENT and the presence timer when PRESENT (R208); a timer of 0 is an
expiry not yet taken.  `sent` is the transmit line: every reply sent since device reset, oldest first
(log entry 5). -/
structure PortUnit where
  receive : Receive
  baud : Nat
  presence : Option Nat
  inProgress : Option InProgress
  reasons : EventReasons
  readPos : Option ReadPos
  mark : Nat
  follow : Bool
  sent : List Reply
  deriving DecidableEq, Repr

/-! ## The machine -/

/-- The part.  `pending` is the queue of commands that are waiting, first in, first out. -/
structure State where
  pending : List Instr
  reference : Reference
  house : HouseParams
  storeReady : Bool
  channels : Vector Channel 32
  portL : PortUnit
  portA : PortUnit
  portB : PortUnit
  asRun : AsRun
  houseFlags : List FaultClass
  capture : Option Capture
  deriving DecidableEq, Repr

/-- Faults that stop the machine.  There is none: no rule of the spec stops the part (NOTES.md, Stops). -/
inductive Fault where
  deriving DecidableEq, Repr

/-- Refusals. -/
inductive Refusal where
  /-- Raised by `exec` for a command without a meaning; safe.  No arm raises it: every command has its
  meaning. -/
  | notModelled (mnemonic : String)
  deriving DecidableEq, Repr

/-! ## Device reset -/

/-- The default policy table (R116). -/
def defaultPolicy : List PolicyAction :=
  [.none, .none, .none, .none, .none, .none, .none, .none,
   .takeAtJunction, .takeNow, .notify, .takeNow, .notify, .takeNow, .notify, .takeNow]

/-- The default house parameters (R180). -/
def defaultHouse : HouseParams where
  rate := .r25
  linkTimeout := 50
  autoTimeout := 50
  leaseTimeout := 250
  holdLimit := 360000
  freeze := false

/-- The default channel parameters (R181). -/
def defaultParams : ChannelParams where
  serviceId := none
  preferred := .A
  policy := defaultPolicy
  guard := 1500
  cueLead := 25
  horizon := 250
  lagLimit := 750
  retention := 0
  quota := 256

/-- A Port Unit after device reset, at the line rate its pins select (R213, R201, R173, R38). -/
def resetPort (baud : Nat) : PortUnit where
  receive := .hunting
  baud := baud
  presence := none
  inProgress := none
  reasons := ⟨false, false, false, false⟩
  readPos := none
  mark := 0
  follow := false
  sent := []

/-- The part right after the release of reset (R2, R162, R179, R195, R196, R213): store initialisation is in
progress (R21), every channel is IDLE, and each port runs at the rate given. -/
def resetState (baudL baudA baudB : Nat) : State where
  pending := []
  reference := { refState := .unset, h := 0, last := none, pendingSet := none }
  house := defaultHouse
  storeReady := false
  channels := Vector.replicate 32 { params := defaultParams, live := none }
  portL := resetPort baudL
  portA := resetPort baudA
  portB := resetPort baudB
  asRun := { ring := [], nextSeq := some 1, dropped := 0 }
  houseFlags := []
  capture := none

/-- The machine right after reset.  The rate-select pins are outside the part; here they are all at 0, which
selects 115,200 baud (DESIGN CHOICE, unsafe, log entry 1). -/
def State.reset : State := resetState 115200 115200 115200

end Sys2Proof.Machine
end

