-- ==== Sys2Proof/Machine/Ops.lean ====
section
/-! DEFINITION. The named reads and writes of the part's state that every block shares: ports, channels,
replies, the event pool, the staging pool, the service ID map and the outputs. -/

namespace Sys2Proof.Machine

/-! ## Ports -/

/-- The automation port that is not `d` (Conventions, Names). -/
def otherDr : DrPort → DrPort
  | .A => .B
  | .B => .A

/-- An automation port as a port. -/
def drPort : DrPort → Port
  | .A => .A
  | .B => .B

/-- A port as an automation port; none for Port L. -/
def asDr : Port → Option DrPort
  | .L => none
  | .A => some .A
  | .B => some .B

/-- The DR output of an automation port. -/
def drOutput : DrPort → Output
  | .A => .drA
  | .B => .drB

/-- The output that a custodian's custody drives (R108). -/
def outputOf : Option Port → Output
  | some .L => .main
  | some .A => .drA
  | some .B => .drB
  | none => .safe

/-- DR_A and DR_B are the DR outputs (R67, R169). -/
def isDrOutput : Output → Bool
  | .drA => true
  | .drB => true
  | _ => false

/-- The Port Unit of a port. -/
def State.port (s : State) : Port → PortUnit
  | .L => s.portL
  | .A => s.portA
  | .B => s.portB

/-- The state with a port's unit replaced. -/
def State.setPort (s : State) (p : Port) (u : PortUnit) : State :=
  match p with
  | .L => { s with portL := u }
  | .A => { s with portA := u }
  | .B => { s with portB := u }

/-- A port is PRESENT (R208). -/
def State.present (s : State) (p : Port) : Bool := (s.port p).presence.isSome

/-! ## Channels -/

/-- The channel of a slot. -/
def State.chan (s : State) (i : Slot) : Channel := s.channels[i]

/-- The state with a slot's channel replaced. -/
def State.setChan (s : State) (i : Slot) (c : Channel) : State := { s with channels := s.channels.set i c }

/-- The in-service state of a slot; none when it is IDLE. -/
def State.live (s : State) (i : Slot) : Option Live := (s.chan i).live

/-- The parameters of a slot. -/
def State.params (s : State) (i : Slot) : ChannelParams := (s.chan i).params

/-- The state with a slot's in-service state replaced. -/
def State.setLive (s : State) (i : Slot) (l : Live) : State :=
  s.setChan i { s.chan i with live := some l }

/-- What `f` makes of an in-service channel; nothing for an IDLE one. -/
def onLive (i : Slot) (s : State) (f : Live → State) : State :=
  match s.live i with
  | some l => f l
  | none => s

/-- The slot a number names, or none outside 0..31. -/
def slotOf (n : Nat) : Option Slot := if h : n < 32 then some ⟨n, h⟩ else none

/-- What `f` makes of the slot a number names. -/
def onSlot (n : Nat) (s : State) (f : Slot → State) : State :=
  match slotOf n with
  | some i => f i
  | none => s

/-- Every slot, in slot order. -/
def slots : List Slot := List.finRange 32

/-- `f` at every slot, in slot order. -/
def forSlots (f : Slot → State → State) (s : State) : State := slots.foldl (fun s i => f i s) s

/-- The in-service channels, in slot order. -/
def State.inService (s : State) : List (Slot × Live) :=
  slots.filterMap fun i => (s.live i).map fun l => (i, l)

/-- A commit is in flight on the channel: its lease holder's batch is SEALED (R83). -/
def Live.inFlight (l : Live) : Bool :=
  match l.batch with
  | some b => match b.phase with
    | .sealed _ _ => true
    | .opened _ => false
  | none => false

/-- The lease holder of a channel (R81, R83). -/
def Live.holder (l : Live) : Option Port := l.batch.map (·.port)

/-- The custody state of a slot; IDLE when it is not in service (R106). -/
def State.custodyState (s : State) (i : Slot) : CustodyState :=
  match s.live i with
  | some l => l.custody.state
  | none => .idle

/-- The changeover output of a slot; the outputs of IDLE channels stand at MAIN (R108). -/
def State.output (s : State) (i : Slot) : Output :=
  match s.live i with
  | some l => l.custody.output
  | none => .main

/-- The two SEL lines of an output: MAIN 00, DR_A 01, DR_B 10, SAFE 11 (pin table). -/
def selLines : Output → BitVec 2
  | .main => 0b00
  | .drA => 0b01
  | .drB => 0b10
  | .safe => 0b11

/-! ## Pools and the service ID map -/

/-- The list the Mirror Store holds for a channel: one that a completion has stored and the resolver has still to
resolve, else the list resolved (R103, R105). -/
def Live.storedEvents (l : Live) : List EventRec :=
  match l.completion with
  | some c => match c.stage with
    | .stored es => es
    | _ => l.events
  | none => l.events

/-- The event pool's slots in use: the events of all lists (R20). -/
def State.slotsInUse (s : State) : Nat := (s.inService.map fun c => c.2.storedEvents.length).sum

/-- The free slot count: none is free until store initialisation ends (R20, R21). -/
def State.freeSlots (s : State) : Nat := if s.storeReady then Config.poolSlots - s.slotsInUse else 0

/-- The staging buffers in use: the OPEN and SEALED batches (R83). -/
def State.buffersInUse (s : State) : Nat := (s.inService.filter fun c => c.2.batch.isSome).length

/-- The number of free staging buffers (R82). -/
def State.freeBuffers (s : State) : Nat := Config.stagingBuffers - s.buffersInUse

/-- The quota sum of the in-service channels (R186). -/
def State.quotaSum (s : State) : Nat := (s.inService.map fun c => (s.params c.1).quota).sum

/-- The service ID a slot carries, 0 for none. -/
def State.service (s : State) (i : Slot) : Nat := (s.params i).serviceId.getD 0

/-- The service ID map: the slot of the in-service channel that holds an ID (R185). -/
def State.slotOfService (s : State) (id : Nat) : Option Slot :=
  (s.inService.find? fun c => (s.params c.1).serviceId = some id).map (·.1)

/-- The slots of the arm set (R114).  The reply to ARM sends them in this order, slot order (DESIGN CHOICE, log entry
48). -/
def State.armSet (s : State) : List Nat := (s.inService.filter fun c => c.2.custody.a).map (·.1.val)

/-- A commit is in flight on some channel. -/
def State.anyInFlight (s : State) : Bool := s.inService.any fun c => c.2.inFlight

/-- Some channel is TAKING, DR, RETURNING or SAFE, or has a commit in flight: the CHANNEL_ACTIVE check of R17. -/
def State.channelActive (s : State) : Bool :=
  s.anyInFlight || s.inService.any fun c => decide (c.2.custody.state ≠ .main)

/-! ## Time -/

/-- H, or none while the reference is UNSET (R3, R4). -/
def State.houseFrame (s : State) : Option Nat :=
  if s.reference.refState = .unset then none else some s.reference.h

/-! ## The as-run sequence -/

/-- The newest sequence number, 0 while the ring has never held an entry (R162). -/
def AsRun.newest (r : AsRun) : Nat := ((r.ring.getLast?).map (·.seq)).getD 0

/-- The oldest retained sequence number; none while the ring is empty (R162). -/
def AsRun.oldest (r : AsRun) : Option Nat := (r.ring.head?).map (·.seq)

/-- The full flag (R172). -/
def AsRun.full (r : AsRun) : Bool := r.nextSeq.isNone

end Sys2Proof.Machine
end

