-- ==== Sys2Proof/Machine/Timeline.lean ====
section
/-! DEFINITION. Timeline Resolution: the walk of an event list, the cursor at a frame, the protected set and
the junction search (R39 to R64), as functions of the list, the anchor, the hold and the frame. -/

namespace Sys2Proof.Machine

/-! ## Records -/

/-- A record's contents: its fields from event id through hold end (R30). -/
def EventRec.contents (e : EventRec) : EventRec := { e with writtenRev := 0 }

/-- The fixed start of a FIXED event. -/
def EventRec.fixedStart (e : EventRec) : Option Nat :=
  match e.start with
  | .follow => none
  | .fixed f _ => some f

/-- The fixed start of a FIXED event whose join is CUT (R46). -/
def EventRec.cutStart (e : EventRec) : Option Nat :=
  match e.start with
  | .fixed f .cut => some f
  | _ => none

/-- An event whose kind is LIVE. -/
def EventRec.isLive (e : EventRec) : Bool :=
  match e.content with
  | .live _ => true
  | .clip _ _ => false

/-- The record with an id is in a list. -/
def hasId (id : Nat) (es : List EventRec) : Bool := es.any fun e => decide (e.id = id)

/-- The cut limit that the events after an event give it (R46). -/
def cutLimit (after : List EventRec) : Option Nat := after.findSome? EventRec.cutStart

/-- The fixed start of the first FIXED event of a list (R44). -/
def firstFixed (after : List EventRec) : Option Nat := after.findSome? EventRec.fixedStart

/-! ## Resolution of a list (R42 to R53) -/

/-- The resolved duration of an event neither held nor hold-ended, C left out where it is none (R47). -/
def plainDuration (nominal lateness start : Nat) : Option Nat → Nat
  | some c => min (nominal - lateness) (c - start)
  | none => nominal - lateness

/-- The resolved duration of an event that is not held: by its hold end when it carries one (R49), else R47. -/
def settledDuration (e : EventRec) (lateness start : Nat) (after : List EventRec) : Nat :=
  match e.holdEnd with
  | some he => he - start
  | none => plainDuration e.nominal lateness start (cutLimit after)

/-- The gap between an end passed on and the event after it (R51); none at the tail. -/
def gapAfter (p : Option Nat) : List EventRec → Option Nat
  | [] => none
  | e :: _ =>
    match e.fixedStart, p with
    | some f, some p => some (f - p)
    | _, _ => some 0

/-- One secondary placed against the media start and clipped to the event's span, `stop` none for the open end
of the held event (R53).  The open end clips nothing, and a secondary's own duration is a count, so that a secondary of
the held event ends where its duration does: none is resolved open-ended, although R51's table, R56 and R135 provide
for one (DEDUCED, log entry 35). -/
def placeSecondary (mediaStart start : Nat) (stop : Option Nat) (s : Secondary) : Option ResolvedSecondary :=
  let at_ := mediaStart + s.offset
  if s.duration = 0 then
    if decide (start ≤ at_) && (match stop with | some e => decide (at_ < e) | none => true) then
      some ⟨s.trigger, at_, some 0⟩
    else none
  else
    let lo := max at_ start
    let hi := match stop with
      | some e => min (at_ + s.duration) e
      | none => at_ + s.duration
    if lo < hi then some ⟨s.trigger, lo, some (hi - lo)⟩ else none

/-- The resolved secondaries of an event, in the order of the record (R53). -/
def placeSecondaries (e : EventRec) (start lateness : Nat) (stop : Option Nat) : List ResolvedSecondary :=
  e.secondaries.filterMap (placeSecondary (start - lateness) start stop)

/-- A SUSPENDED event's resolved fields (R50). -/
def suspendedFields : Resolved := ⟨.suspended, none, .absent, none, none, []⟩

/-- An UNRESOLVED event's resolved fields (R44). -/
def unresolvedFields : Resolved := ⟨.unresolved, none, .absent, none, none, []⟩

/-- The start and lateness of an event, by R43 and R45; none for a FOLLOW event without an end to follow. -/
def startOf (e : EventRec) (p : Option Nat) : Option (Nat × Nat) :=
  match e.fixedStart, p with
  | none, some p => some (p, 0)
  | none, none => none
  | some f, none => some (f, 0)
  | some f, some p => some (max f p, max f p - f)

/-- The resolved fields of an event that is placed and not held, and the end it passes on (R42, R47, R49). -/
def settle (e : EventRec) (after : List EventRec) (start lateness : Nat) : Resolved × Nat :=
  let d := settledDuration e lateness start after
  (⟨if d = 0 then .skipped else .resolved, some start, .frames d, some lateness, gapAfter (some (start + d)) after,
    if d = 0 then [] else placeSecondaries e start lateness (some (start + d))⟩, start + d)

/-- A FOLLOW event without an end to follow: SKIPPED at the first FIXED event after it, or UNRESOLVED (R44). -/
def unanchored (after : List EventRec) : Resolved :=
  match firstFixed after with
  | some f => ⟨.skipped, some f, .frames 0, some 0, gapAfter none after, []⟩
  | none => unresolvedFields

/-- The held event's resolved fields, at the start and lateness it takes by R43 and R45 (R50, R74).  A FOLLOW event
without an end to follow takes no start by either: it is held open with none (DEDUCED, log entry 36). -/
def heldFields (e : EventRec) (place : Option (Nat × Nat)) : Resolved :=
  ⟨.resolved, place.map (·.1), .open, place.map (·.2), none,
    match place with
    | some (start, lateness) => placeSecondaries e start lateness none
    | none => []⟩

/-- The walk of a list from head to tail with the end `p` passed on to its head (R42 to R53).  It stops at the held
event, and every event after that one is SUSPENDED (R50, R74). -/
def walk (held : Option Nat) : Option Nat → List EventRec → List Resolved
  | _, [] => []
  | p, e :: after =>
    if held = some e.id then heldFields e (startOf e p) :: after.map fun _ => suspendedFields
    else match startOf e p with
      | none => unanchored after :: walk held none after
      | some (start, lateness) =>
        (settle e after start lateness).1 :: walk held (some (settle e after start lateness).2) after

/-- The timeline of a list: its resolution from the channel anchor and the identity of the held event (R40). -/
def resolve (events : List EventRec) (anchor held : Option Nat) : List Resolved := walk held anchor events

/-! ## The cursor (R54 to R57) -/

/-- The frames of a settled duration; 0 otherwise. -/
def durFrames : Dur → Nat
  | .frames n => n
  | _ => 0

/-- The end a placed event passes on: its start, and its duration where it has one (R42). -/
def Resolved.stop (r : Resolved) : Option Nat := r.start.map fun s => s + durFrames r.duration

/-- An event occupies frame `x`: it has frames and x is one of them, or it is held and has started (R54). -/
def Resolved.covers (r : Resolved) (x : Nat) : Bool :=
  match r.start, r.duration with
  | some s, .frames d => decide (s ≤ x) && decide (x < s + d)
  | some s, .open => decide (s ≤ x)
  | _, _ => false

/-- A secondary at a frame, omitted once it has finished (R56). -/
def secondaryAt (x : Nat) (s : ResolvedSecondary) : Option CursorSecondary :=
  if x < s.start then some ⟨s.trigger, .upcoming, some (s.start - x)⟩
  else match s.duration with
    | none => some ⟨s.trigger, .active, none⟩
    | some 0 => if s.start = x then some ⟨s.trigger, .active, some 0⟩ else none
    | some d => if x < s.start + d then some ⟨s.trigger, .active, some (s.start + d - x)⟩ else none

/-- The EVENT cursor on an event at a frame it occupies (R55). -/
def eventCursor (e : EventRec) (r : Resolved) (next : Option Nat) (x : Nat) : EventCursor :=
  let o := x - r.start.getD 0
  let lateness := r.lateness.getD 0
  { id := e.id, content := e.content, offset := o
    remaining := match r.duration with | .frames d => some (d - o) | _ => none
    lateness := lateness
    mediaPosition := match e.content with | .clip _ inPoint => some (inPoint + lateness + o) | .live _ => none
    next := next
    secondaries := r.secondaries.filterMap (secondaryAt x) }

/-- The event that occupies frame `x`, if one does. -/
def findEvent (x : Nat) : List (EventRec × Resolved) → Option EventCursor
  | [] => none
  | (e, r) :: rest =>
    if r.covers x then some (eventCursor e r (rest.head?.map (·.1.id)) x) else findEvent x rest

/-- The gap that holds frame `x`, if one does: the event after it, its state and the frames until its start. -/
def findGap (x : Nat) : List (EventRec × Resolved) → Option (Nat × ResState × Nat)
  | [] => none
  | (_, r) :: rest =>
    match r.stop, r.gapAfter, rest with
    | some p, some g, (e', r') :: _ =>
      if decide (p ≤ x) && decide (x < p + g) then some (e'.id, r'.state, p + g - x) else findGap x rest
    | _, _, _ => findGap x rest

/-- The placed events: those with a resolved start. -/
def placed (l : List (EventRec × Resolved)) : List (EventRec × Resolved) := l.filter fun c => c.2.start.isSome

/-- The cursor at frame `x` (R54). -/
def cursorAt (events : List EventRec) (timeline : List Resolved) (x : Nat) : Cursor :=
  let l := events.zip timeline
  match (placed l).head?, (placed l).getLast? with
  | some (ef, rf), some (el, rl) =>
    match findEvent x l with
    | some c => .event c
    | none =>
      match findGap x l with
      | some (id, st, n) => .gap id st n
      | none =>
        if x < rf.start.getD 0 then .before ef.id rf.state (rf.start.getD 0 - x)
        else .ended el.id (x - rl.stop.getD 0)
  | _, _ => .noTimeline

/-- A channel's cursor at a frame, from the timeline the resolver holds. -/
def Live.cursor (l : Live) (x : Nat) : Cursor := cursorAt l.events l.timeline x

/-- A cursor is EVENT on an event. -/
def Cursor.onEvent (c : Cursor) (id : Nat) : Bool :=
  match c with
  | .event e => decide (e.id = id)
  | _ => false

/-! ## The protected set (R60, R62) -/

/-- One event of the protected set, with its contents in the sense of R30. -/
def protEntry (e : EventRec) (r : Resolved) : ProtEntry := ⟨e.contents, r.start, r.duration⟩

/-- A placed event starts before `h + guard` and has not finished at `h` (R60). -/
def protectedAt (h guard : Nat) (r : Resolved) : Bool :=
  match r.start, r.duration with
  | some s, .frames d => decide (s < h + guard) && decide (h < s + d ∨ (d = 0 ∧ h < s))
  | some s, .open => decide (s < h + guard)
  | _, _ => false

/-- The held event and the event after it, of a zipped list (R60). -/
def heldPair (id : Nat) : List (EventRec × Resolved) → List (EventRec × Resolved)
  | [] => []
  | c :: rest => if c.1.id = id then c :: rest.take 1 else heldPair id rest

/-- The protected set at a frame; empty while UNSET (R60). -/
def drawProtected (events : List EventRec) (timeline : List Resolved) (held : Option Nat) (guard : Nat) :
    Option Nat → List ProtEntry
  | none => []
  | some h =>
    let l := events.zip timeline
    match held with
    | some id => (heldPair id l).map fun c => protEntry c.1 c.2
    | none => (l.filter fun c => protectedAt h guard c.2).map fun c => protEntry c.1 c.2

/-- The entry with an event id. -/
def protFind (id : Nat) (ps : List ProtEntry) : Option ProtEntry := ps.find? fun p => decide (p.contents.id = id)

/-- The first entry of a list that `bad` names. -/
def firstBroken (current trial : List ProtEntry) : Option Nat :=
  match current.find? fun p => decide (p ∉ trial) with
  | some p => some p.contents.id
  | none =>
    match trial.find? fun p => decide (p ∉ current) with
    | some p => some p.contents.id
    | none => if current = trial then none else current.head?.map (·.contents.id)

/-- The ids before an id in a list, and the event after it. -/
def splitAtId (id : Nat) (es : List EventRec) : List EventRec × Option EventRec × Option EventRec :=
  let before := es.takeWhile fun e => decide (e.id ≠ id)
  let rest := es.dropWhile fun e => decide (e.id ≠ id)
  (before, rest.head?, rest.tail.head?)

/-- The first event by which a trial breaks the protected set of a held channel, or none (R62). -/
def heldBroken (id : Nat) (current trial : List EventRec) (curTl trialTl : List Resolved) : Option Nat :=
  let c := splitAtId id current
  let t := splitAtId id trial
  let startIn := fun (es : List EventRec) (tl : List Resolved) =>
    ((es.zip tl).find? fun x => decide (x.1.id = id)).bind fun x => x.2.start
  if decide (t.2.1.map EventRec.contents ≠ c.2.1.map EventRec.contents) ||
      decide (startIn trial trialTl ≠ startIn current curTl) then some id
  else if decide (c.2.2.isSome ∧ t.2.2.map EventRec.contents ≠ c.2.2.map EventRec.contents) then
    c.2.2.map (·.id)
  else (t.1.find? fun e => !hasId e.id c.1).map (·.id)

/-- The first event by which a trial breaks a channel's protected set, or none when it keeps it (R62, R63).
The trial is resolved with the channel's anchor and hold. -/
def brokenBy (l : Live) (guard : Nat) (h : Option Nat) (trial : List EventRec) : Option Nat :=
  let heldId := l.hold.map (·.eventId)
  let trialTl := resolve trial l.anchor heldId
  match heldId with
  | some id => heldBroken id l.events trial l.timeline trialTl
  | none => firstBroken l.protectedSet (drawProtected trial trialTl none guard h)

/-- The resolved start and duration that a timeline gives an event; absent for an event not in the list. -/
def resolvedOf (id : Nat) (events : List EventRec) (timeline : List Resolved) : Option Nat × Dur :=
  match (events.zip timeline).find? fun x => decide (x.1.id = id) with
  | some x => (x.2.start, x.2.duration)
  | none => (none, .absent)

/-! ## The junction search (R64) -/

/-- The resolved start of the first event with frames that starts in a window. -/
def junctionIn (lo hi : Nat) (timeline : List Resolved) : Option Nat :=
  timeline.findSome? fun r =>
    match r.start, r.duration with
    | some s, .frames d => if decide (0 < d) && decide (lo ≤ s) && decide (s ≤ hi) then some s else none
    | _, _ => none

/-- The switch frame the junction search answers. -/
def junctionFrame (l : Live) (p : ChannelParams) (h : Nat) : Nat :=
  match l.hold with
  | some _ => h + p.cueLead
  | none => (junctionIn (h + p.cueLead) (h + p.horizon) l.timeline).getD (h + p.cueLead)

/-! ## Retirement (R70) -/

/-- An event is due: RESOLVED or SKIPPED, not held, its end plus the retention at or before `h`. -/
def retireDue (h retention : Nat) (held : Option Nat) (c : EventRec × Resolved) : Bool :=
  decide (held ≠ some c.1.id) &&
  (match c.2.state with | .resolved => true | .skipped => true | _ => false) &&
  (match c.2.stop with | some e => decide (e + retention ≤ h) | none => false)

/-- The due events at the head of a list. -/
def dueEvents (l : Live) (retention h : Nat) : List (EventRec × Resolved) :=
  (l.events.zip l.timeline).takeWhile (retireDue h retention (l.hold.map (·.eventId)))

end Sys2Proof.Machine
end

