-- ==== Sys2Proof/Machine/Cues.lean ====
section
/-! DEFINITION. Takeover cues: numbering, computing, refresh and reissue (R130 to R137), on the state of one
in-service channel. -/

namespace Sys2Proof.Machine

/-- The number of the next cue: after 65,535 comes 1, so that no cue is numbered 0 (R131). -/
def nextCueNumber (counter : Nat) : Nat := if counter < Config.lastCue then counter + 1 else 1

/-- What the cursor at the switch frame makes of a cue (R133, R134). -/
def cueBodyOf (held : Option Nat) : Cursor → CueBody
  | .event c => .event c (decide (held = some c.id))
  | .gap id st n => .gap false id st n
  | .before id st n => .gap true id st n
  | .ended id n => .ended id n
  | .noTimeline => .noTimeline

/-- A cue computed at switch frame `t` from the timeline the resolver holds (R133). -/
def Live.cueBody (l : Live) (t : Nat) : CueBody := cueBodyOf (l.hold.map (·.eventId)) (l.cursor t)

/-- The event that identifies a cue, by its kind; none for NO_TIMELINE (R133). -/
def CueBody.identifying : CueBody → Option Nat
  | .event c _ => some c.id
  | .gap _ next _ _ => some next
  | .ended last _ => some last
  | .noTimeline => none

/-- Two cues have the same kind, identifying event and position; the before flag of a GAP is none of these (R137). -/
def sameIdentity : CueBody → CueBody → Bool
  | .event a _, .event b _ => decide (a.id = b.id ∧ a.offset = b.offset)
  | .gap _ a _ m, .gap _ b _ n => decide (a = b ∧ m = n)
  | .ended a m, .ended b n => decide (a = b ∧ m = n)
  | .noTimeline, .noTimeline => true
  | _, _ => false

/-- A new cue for a channel at a switch frame: COMPUTING while a commit is in flight, else ISSUED (R131, R133,
R136). -/
def Live.freshCue (l : Live) (t : Nat) : Cue :=
  { number := nextCueNumber l.custody.cueCounter, switchFrame := t
    state := if l.inFlight then .computing else .issued
    updates := 0
    body := if l.inFlight then none else some (l.cueBody t) }

/-- The channel with its takeover record replaced. -/
def Live.setTakeover (l : Live) (t : Option Takeover) : Live := { l with custody := { l.custody with takeover := t } }

/-- A new cue made for a takeover under way: it takes the next number, and no switch frame of it has been
reached (R131). -/
def Live.makeCue (l : Live) (t : Takeover) (frame : Nat) : Live :=
  { l with custody := { l.custody with
      cueCounter := nextCueNumber l.custody.cueCounter
      takeover := some { t with cue := l.freshCue frame }
      switchDue := false } }

/-- The cue of a TAKING channel after its timeline has changed: refreshed in place under its number when its
identity is unchanged, reissued under a new number otherwise, and left alone while COMPUTING (R137). -/
def Live.timelineChanged (l : Live) : Live :=
  match l.custody.state, l.custody.takeover with
  | .taking, some t =>
    match t.cue.body with
    | none => l
    | some old =>
      let new := l.cueBody t.cue.switchFrame
      if sameIdentity old new then
        if old = new then l
        else l.setTakeover (some { t with cue :=
          { t.cue with body := some new, updates := min (t.cue.updates + 1) Config.lastCue } })
      else
        { l with custody := { l.custody with
            cueCounter := nextCueNumber l.custody.cueCounter
            takeover := some { t with cue :=
              { number := nextCueNumber l.custody.cueCounter, switchFrame := t.cue.switchFrame, state := .issued,
                updates := 0, body := some new } } } }
  | _, _ => l

/-- A COMPUTING cue computed at the commit's completion, its number and switch frame unchanged (R136). -/
def Live.computeCue (l : Live) : Live :=
  match l.custody.state, l.custody.takeover with
  | .taking, some t =>
    if t.cue.state = .computing then
      l.setTakeover (some { t with cue :=
        { t.cue with state := .issued, body := some (l.cueBody t.cue.switchFrame) } })
    else l
  | _, _ => l

/-- A READY that port `d` has given, withdrawn (R141). -/
def Live.withdrawReady (l : Live) (d : DrPort) : Live :=
  match l.custody.takeover with
  | some t =>
    if t.target = d ∧ t.cue.state = .ready then
      l.setTakeover (some { t with cue := { t.cue with state := .issued } })
    else l
  | none => l

end Sys2Proof.Machine
end

