-- ==== Sys2Proof/Machine/Flags.lean ====
section
/-! DEFINITION. Attention sets, fault flag sets and the capture record (Faults and Attention), and the sending
of replies, each of which carries the attention set. -/

namespace Sys2Proof.Machine

/-! ## Attention -/

/-- CUE_PENDING holds at a port: it is the target of a TAKING channel whose cue is COMPUTING or ISSUED (R138). -/
def State.cuePending (s : State) (p : Port) : Bool :=
  s.inService.any fun c => match c.2.custody.takeover with
    | some t => decide (drPort t.target = p) && decide (t.cue.state ≠ .ready)
    | none => false

/-- ASRUN_WAITING holds at a port: its read mark is below the newest sequence number (R178). -/
def State.asRunWaiting (s : State) (p : Port) : Bool := decide ((s.port p).mark < s.asRun.newest)

/-- A port's attention set: its event reasons as they stand, and its condition reasons as they hold (R201). -/
def State.attention (s : State) (p : Port) : Attention :=
  let r := (s.port p).reasons
  { cuePending := s.cuePending p, custodyChanged := r.custodyChanged, policyNotice := r.policyNotice,
    fault := r.fault, returnPending := r.returnPending, asRunWaiting := s.asRunWaiting p }

/-- The attention line is asserted while the attention set is not empty (R202). -/
def State.attentionLine (s : State) (p : Port) : Bool :=
  let a := s.attention p
  a.cuePending || a.custodyChanged || a.policyNotice || a.fault || a.returnPending || a.asRunWaiting

/-- A port's event reasons changed by `f`. -/
def State.raise (s : State) (p : Port) (f : EventReasons → EventReasons) : State :=
  s.setPort p { s.port p with reasons := f (s.port p).reasons }

/-- CUSTODY_CHANGED at all three ports (R108). -/
def State.raiseCustodyChanged (s : State) : State :=
  ((s.raise .L fun r => { r with custodyChanged := true }).raise .A fun r => { r with custodyChanged := true }).raise
    .B fun r => { r with custodyChanged := true }

/-- POLICY_NOTICE at Ports A and B (R118). -/
def State.raisePolicyNotice (s : State) : State :=
  (s.raise .A fun r => { r with policyNotice := true }).raise .B fun r => { r with policyNotice := true }

/-- FAULT at all three ports (R201). -/
def State.raiseFault (s : State) : State :=
  ((s.raise .L fun r => { r with fault := true }).raise .A fun r => { r with fault := true }).raise
    .B fun r => { r with fault := true }

/-- RETURN_PENDING at a port (R154). -/
def State.raiseReturnPending (s : State) (p : Port) : State := s.raise p fun r => { r with returnPending := true }

/-! ## Fault Capture -/

/-- The priority of a class, 1 the highest (R193). -/
def priority : FaultClass → Nat
  | .safeEntry => 1
  | .mirrorStale => 2
  | .custodianAbsent => 3
  | .cueMissed => 4
  | .returnCancelled => 5
  | .holdLimit => 6
  | .leaseExpired => 7
  | .refLost => 8
  | .lineError => 9

/-- The classes in order of priority. -/
def faultClasses : List FaultClass :=
  [.safeEntry, .mirrorStale, .custodianAbsent, .cueMissed, .returnCancelled, .holdLimit, .leaseExpired,
   .refLost, .lineError]

/-- A flag set with a class added; sets stand in order of priority, so that equal sets are equal data (R195; the order
is the model's, log entry 48). -/
def addFlag (c : FaultClass) (fs : List FaultClass) : List FaultClass :=
  faultClasses.filter fun x => decide (x = c ∨ x ∈ fs)

/-- A fault report (R194). -/
structure FaultReport where
  cls : FaultClass
  slot : Option Slot
  port : Option Port
  frame : Option Nat
  detail : FaultDetail
  deriving DecidableEq, Repr

/-- The capture record after a report (R197). -/
def captureReport (freeze : Bool) (r : FaultReport) (channel : Option (Nat × Nat)) : Option Capture → Option Capture
  | none => some ⟨r.cls, channel, r.port, r.frame, r.detail, false, freeze⟩
  | some c =>
    if c.cls = r.cls then some { c with repeated := true }
    else if decide (priority r.cls < priority c.cls) && !freeze then
      some ⟨r.cls, channel, r.port, r.frame, r.detail, false, false⟩
    else some c

/-- The flag sets after a report: the channel's when it names one, the house's otherwise (R195). -/
def State.flagReport (s : State) (r : FaultReport) : State :=
  match r.slot with
  | some i => onLive i s fun l => s.setLive i { l with flags := addFlag r.cls l.flags }
  | none => { s with houseFlags := addFlag r.cls s.houseFlags }

/-- The class of a report is already in the flag set it names. -/
def State.flagged (s : State) (r : FaultReport) : Bool :=
  match r.slot with
  | some i => match s.live i with
    | some l => decide (r.cls ∈ l.flags)
    | none => true
  | none => decide (r.cls ∈ s.houseFlags)

/-- A fault report taken whole: the flag sets, then the capture record, then FAULT where either changed (R194). -/
def State.report (s : State) (r : FaultReport) : State :=
  let captured := captureReport s.house.freeze r (r.slot.map fun i => (i.val, s.service i)) s.capture
  let s1 := { s.flagReport r with capture := captured }
  if !s.flagged r || decide (captured ≠ s.capture) then s1.raiseFault else s1

/-- A report in a channel's flag set at the present frame. -/
def State.reportChannel (s : State) (i : Slot) (c : FaultClass) (p : Option Port) (d : FaultDetail) : State :=
  s.report ⟨c, some i, p, s.houseFrame, d⟩

/-! ## Replies -/

/-- A reply sent on a port: it echoes the code and tag, and carries the attention set as it stands (R206, R215). -/
def State.reply (s : State) (p : Port) (code tag : Nat) (st : Status) (body : ReplyBody) : State :=
  s.setPort p { s.port p with sent := (s.port p).sent ++ [⟨code, tag, st, s.attention p, body⟩] }

/-- The reply to a request that was answered later: the request in progress ends with it (R206). -/
def State.replyLater (s : State) (p : Port) (code tag : Nat) (st : Status) (body : ReplyBody) : State :=
  let s1 := s.reply p code tag st body
  s1.setPort p { s1.port p with inProgress := none }

end Sys2Proof.Machine
end

