-- ==== Sys2Proof/Machine/Operands.lean ====
section
/-! DEFINITION. The operands that commands carry, read against the state: schedule times and timecodes (House
Time, R1 to R16), the channel field (R207), and the ranges of parameters (R180, R181). -/

namespace Sys2Proof.Machine

/-! ## House rates (R1) -/

/-- The nominal frames per second n. -/
def rateN : HouseRate → Nat
  | .r25 => 25
  | .r2997 => 30
  | .r50 => 50
  | .r5994 => 60

/-- The timecode labels k dropped at the start of a minute; 0 at a non-drop rate. -/
def rateK : HouseRate → Nat
  | .r25 => 0
  | .r2997 => 2
  | .r50 => 0
  | .r5994 => 4

/-- The frames per day FPD. -/
def fpd : HouseRate → Nat
  | .r25 => 2160000
  | .r2997 => 2589408
  | .r50 => 4320000
  | .r5994 => 5178816

/-- The nominal frame period in thirds of a nanosecond: 40 ms, 1001/30 ms, 20 ms and 1001/60 ms, each exact. -/
def nominalPeriod : HouseRate → Nat
  | .r25 => 120000000
  | .r2997 => 100100000
  | .r50 => 60000000
  | .r5994 => 50050000

/-- The frames of ten minutes, T10. -/
def tenMinutes : HouseRate → Nat
  | .r25 => 15000
  | .r2997 => 17982
  | .r50 => 30000
  | .r5994 => 35964

/-- The frames of a minute that drops labels, P. -/
def droppedMinute : HouseRate → Nat
  | .r25 => 1500
  | .r2997 => 1798
  | .r50 => 3000
  | .r5994 => 3596

/-- The highest H, the last frame of day 65,535 (R8). -/
def maxH (r : HouseRate) : Nat := (Config.lastDay + 1) * fpd r - 1

/-- H advanced by one frame, standing still at the highest (R8). -/
def nextH (r : HouseRate) (h : Nat) : Nat := if h < maxH r then h + 1 else h

/-! ## Timecode to frame (R10 to R13, R16) -/

/-- Every field of a timecode in range (R11). -/
def timecodeInRange (r : HouseRate) (t : Timecode) : Bool :=
  decide (t.hh < 24) && decide (t.mm < 60) && decide (t.ss < 60) && decide (t.ff < rateN r)

/-- The total-minute count TM. -/
def totalMinutes (t : Timecode) : Nat := 60 * t.hh + t.mm

/-- The label does not exist: it is one of the first k of a minute that drops labels (R13). -/
def labelDropped (r : HouseRate) (t : Timecode) : Bool :=
  decide (t.ss = 0) && decide (t.ff < rateK r) && decide (totalMinutes t % 10 ≠ 0)

/-- A label that does not exist, moved forward to ff = k; another as it is (R13). -/
def movedLabel (r : HouseRate) (t : Timecode) : Timecode :=
  if labelDropped r t then { t with ff := rateK r } else t

/-- The frame-of-day of a timecode that exists (R12, R13; at a non-drop rate k is 0). -/
def frameOfDay (r : HouseRate) (t : Timecode) : Nat :=
  (t.hh * 3600 + t.mm * 60 + t.ss) * rateN r + t.ff - rateK r * (totalMinutes t - totalMinutes t / 10)

/-- A schedule time as a frame, with whether it was adjusted; none when it is refused (R16). -/
def toFrame (r : HouseRate) (t : SchedTime) : Option (Nat × Bool) :=
  if timecodeInRange r t.tc && decide (t.day ≤ Config.lastDay) then
    some (t.day * fpd r + frameOfDay r (movedLabel r t.tc), labelDropped r t.tc)
  else none

/-! ## Frame to timecode (R14, R15) -/

/-- The label count that a frame-of-day would have without dropping (R15); the frame-of-day itself at a
non-drop rate. -/
def undropped (r : HouseRate) (fod : Nat) : Nat :=
  let d := fod / tenMinutes r
  let mr := fod % tenMinutes r
  let k := rateK r
  if k = 0 then fod
  else if mr < k then fod + 9 * k * d
  else fod + (9 * k * d + k * ((mr - k) / droppedMinute r))

/-- The timecode of a frame-of-day (R14, R15). -/
def toTimecode (r : HouseRate) (fod : Nat) : Timecode :=
  let n := rateN r
  let c := undropped r fod
  { hh := c / (3600 * n), mm := c / (60 * n) % 60, ss := c / n % 60, ff := c % n }

/-- A frame as reported: H, with day and timecode unless the day exceeds 65,535 (R10, R59). -/
def frameField (r : HouseRate) (h : Nat) : FrameField :=
  { h := h
    label := if h / fpd r ≤ Config.lastDay then some ⟨h / fpd r, toTimecode r (h % fpd r)⟩ else none }

/-- A frame reported at the house rate in force. -/
def State.frame (s : State) (h : Nat) : FrameField := frameField s.house.rate h

/-- H reported, or none while UNSET. -/
def State.reportedH (s : State) : Option FrameField := s.houseFrame.map s.frame

/-! ## Refusal chains -/

/-- What a request's checks give: what its effect needs, or the status and body of its refusal. -/
abbrev Verdict (α : Type) := Except (Status × ReplyBody) α

/-- A condition whose holding decides the reply (Conventions, Replies). -/
def refuseIf {α : Type} (c : Bool) (st : Status) (rest : Verdict α) : Verdict α :=
  if c then .error (st, .empty) else rest

/-- A condition whose holding decides the reply, with the details the reply carries. -/
def refuseWith {α : Type} (c : Bool) (st : Status) (body : ReplyBody) (rest : Verdict α) : Verdict α :=
  if c then .error (st, body) else rest

/-- OK, or ADJUSTED for a request accepted with a value moved or clamped (R214). -/
def okOr (adjusted : Bool) : Status := if adjusted then .adjusted else .ok

/-! ## The channel field (R207) -/

/-- The channel a request names, for a request that needs it in service: a service ID from Port L, a slot from
Ports A and B. -/
def State.address (s : State) (p : Port) (ch : Nat) : Except Status (Slot × Live) :=
  match p with
  | .L =>
    match s.slotOfService ch with
    | none => .error .unknownService
    | some i => match s.live i with
      | none => .error .unknownService
      | some l => .ok (i, l)
  | _ =>
    match slotOf ch with
    | none => .error .unknownChannel
    | some i => match s.live i with
      | none => .error .notInService
      | some l => .ok (i, l)

/-- The checks of the channel field in a chain. -/
def State.addressed {α : Type} (s : State) (p : Port) (ch : Nat) (k : Slot → Live → Verdict α) : Verdict α :=
  match s.address p ch with
  | .error st => .error (st, .empty)
  | .ok (i, l) => k i l

/-! ## Ranges of parameters -/

/-- A number in a range that includes both ends. -/
def within (lo hi n : Nat) : Bool := decide (lo ≤ n) && decide (n ≤ hi)

/-- The value a configuration field leaves in force, given the one stored. -/
def keepOr {α : Type} (stored : α) : Keep α → α
  | .keep => stored
  | .give v => v

/-- A given enumerated value is one of its enumeration. -/
def keepKnown {α : Type} : Keep (Option α) → Bool
  | .keep => true
  | .give v => v.isSome

/-- The value an enumerated configuration field leaves in force; one outside its enumeration leaves the
stored value, and its request is refused. -/
def keepEnum {α : Type} (stored : α) : Keep (Option α) → α
  | .keep => stored
  | .give v => v.getD stored

/-- Every house parameter in its range (R180). -/
def houseInRange (p : HouseParams) : Bool :=
  within 5 1500 p.linkTimeout && within 5 1500 p.autoTimeout && within 25 15000 p.leaseTimeout &&
  within 25 16777215 p.holdLimit

/-- Every channel parameter in its range (R181). -/
def paramsInRange (p : ChannelParams) : Bool :=
  (match p.serviceId with | none => true | some id => within 1 65535 id) &&
  decide (p.policy.length = 16) && within 100 1048575 p.guard && within 5 1000 p.cueLead &&
  within 0 65535 p.horizon && within 25 1048575 p.lagLimit && within 0 65535 p.retention && within 16 1024 p.quota

/-- Cue lead and junction horizon are below the guard (R181). -/
def paramsRelated (p : ChannelParams) : Bool := decide (p.cueLead < p.guard) && decide (p.horizon < p.guard)

/-- A given number as an optional service ID, 0 for none (R216). -/
def serviceIdOf (n : Nat) : Option Nat := if n = 0 then none else some n

end Sys2Proof.Machine
end

