-- ==== Sys2Proof/Machine/Log.lean ====
section
/-! DEFINITION. The As-Run Log: writing entries, notices, switch records and segments (R162 to R172), and the
examination that READ AS-RUN makes (R175). -/

namespace Sys2Proof.Machine

/-- The ring with an entry added: the oldest goes when 2,048 are held (R163). -/
def pushEntry (ring : List LogEntry) (e : LogEntry) : List LogEntry :=
  if ring.length < Config.ringEntries then ring ++ [e] else ring.tail ++ [e]

/-- The log after an entry takes sequence number `n`; the last number makes it full (R163, R172). -/
def AsRun.write (r : AsRun) (n : Nat) (e : LogEntry) : AsRun :=
  { r with ring := pushEntry r.ring e, nextSeq := if n = Config.lastSequence then none else some (n + 1) }

/-- An entry not written because the log is full (R172). -/
def AsRun.drop (r : AsRun) : AsRun := { r with dropped := min (r.dropped + 1) Config.lastSequence }

/-- An entry written for a channel under the next sequence number, which becomes the channel's latest; when it
is the last of 48 bits, LINE_ERROR "log full" is recorded.  A full log counts the entry as dropped (R163,
R171, R172). -/
def State.writeEntry (s : State) (i : Slot) (frame : Nat) (body : EntryBody) : State :=
  match s.asRun.nextSeq with
  | none => { s with asRun := s.asRun.drop }
  | some n =>
    let s1 := { s with asRun := s.asRun.write n ⟨n, i.val, s.service i, frame, s.house.rate, body⟩ }
    let s2 := onLive i s1 fun l => s1.setLive i { l with latestSeq := n }
    if n = Config.lastSequence then s2.report ⟨.lineError, none, none, some frame, .line .logFull⟩ else s2

/-- The segment of a channel replaced. -/
def State.setSegment (s : State) (i : Slot) (g : Option Segment) : State :=
  onLive i s fun l => s.setLive i { l with segment := g }

/-- A channel's open segment closed at a frame: its AIRED entry, or none when it aired no frame (R167).  One whose first
frame lies beyond the frame is discarded as one that aired none (DESIGN CHOICE, log entry 45). -/
def State.closeSegment (s : State) (i : Slot) (frame : Nat) : State :=
  onLive i s fun l =>
    match l.segment with
    | none => s
    | some g =>
      let s1 := s.setSegment i none
      if g.firstFrame < frame then
        s1.writeEntry i frame (.aired g.eventId g.firstFrame g.firstOffset (frame - g.firstFrame) g.output)
      else s1

/-- The event of a channel's open segment. -/
def State.segmentEvent (s : State) (i : Slot) : Option Nat :=
  (s.live i).bind fun l => l.segment.map (·.eventId)

/-- An end notice (R167). -/
def State.endNotice (s : State) (i : Slot) (id frame : Nat) : State :=
  if s.segmentEvent i = some id then s.closeSegment i frame else s

/-- A skip notice (R168). -/
def State.skipNotice (s : State) (i : Slot) (id frame : Nat) : State := s.writeEntry i frame (.skipped id)

/-- A start notice (R166).  One that finds the segment of another event open closes it as an end notice does, and so
writes the AIRED entry of R167, though R163 and R166 say that a start notice writes none (DESIGN CHOICE, log entry
53). -/
def State.startNotice (s : State) (i : Slot) (id frame offset : Nat) (out : Output) : State :=
  if s.segmentEvent i = some id then s
  else (s.closeSegment i frame).setSegment i (some ⟨id, frame, offset, out⟩)

/-- The SWITCH entry's reason of a takeover, by its origin (R144). -/
def originReason : Origin → SwitchReason
  | .policy => .policy
  | .manual => .manual
  | .swap => .swap

/-- A switch record: close, record, open (R169).  `cursor` is the cursor at the frame, used where the output
changes to a DR output. -/
def State.switchRecord (s : State) (i : Slot) (fromO toO : Output) (reason : SwitchReason) (cue : Option Nat)
    (frame : Nat) (cursor : Cursor) : State :=
  let s1 := if isDrOutput fromO && decide (fromO ≠ toO) then s.closeSegment i frame else s
  let s2 := s1.writeEntry i frame (.switch fromO toO reason cue)
  if isDrOutput toO && decide (fromO ≠ toO) then
    match cursor with
    | .event c => s2.setSegment i (some ⟨c.id, frame, c.lateness + c.offset, toO⟩)
    | _ => s2
  else s2

/-! ## READ AS-RUN's examination (R175) -/

/-- An entry matches: no set is given, or its service ID (Port L) or slot (Ports A and B) is a member. -/
def asRunMatches (p : Port) (set : SetField) (e : LogEntry) : Bool :=
  match set with
  | .members ms => decide ((if p = .L then e.service else e.slot) ∈ ms)
  | _ => true

/-- Entries examined in sequence order until `count` match or none is left: the matching entries, and the last
entry examined. -/
def examine (ok : LogEntry → Bool) : Nat → Option Nat → List LogEntry → List LogEntry × Option Nat
  | 0, last, _ => ([], last)
  | _ + 1, last, [] => ([], last)
  | n + 1, _, e :: es =>
    if ok e then
      let r := examine ok n (some e.seq) es
      (e :: r.1, r.2)
    else examine ok (n + 1) (some e.seq) es

/-- An entry as reported: its frames converted at the rate it records (R164). -/
def reportEntry (e : LogEntry) : AsRunEntryReport :=
  { entry := e
    frame := frameField e.rate e.frame
    firstFrame := match e.body with
      | .aired _ first _ _ _ => some (frameField e.rate first)
      | _ => none }

end Sys2Proof.Machine
end

