-- ==== Sys2Proof/Machine/Resolver.lean ====
section
/-! DEFINITION. Running Timelines: re-resolution and what it hands on (R40, R41), the work of a frame arrival
(R66, R67), retirement (R70, R72) and the release of a hold (R78, R79). -/

namespace Sys2Proof.Machine

/-- The protected set drawn again at the present H (R61). -/
def Live.redraw (l : Live) (p : ChannelParams) (h : Option Nat) : Live :=
  { l with protectedSet := drawProtected l.events l.timeline (l.hold.map (·.eventId)) p.guard h }

/-- The timeline a channel has from its list, anchor and hold (R40). -/
def Live.resolveNow (l : Live) : List Resolved := resolve l.events l.anchor (l.hold.map (·.eventId))

/-- A channel re-resolved from its list, anchor and hold, and the result handed on: the protected set, the
followed cursor, and word to the cue of a TAKING channel (R40, R41). -/
def Live.reResolve (l : Live) (p : ChannelParams) (h : Option Nat) : Live :=
  let l1 : Live := { l with timeline := l.resolveNow, timelineRev := l.mirrorRev }
  let l2 : Live := l1.redraw p h
  Live.timelineChanged { l2 with followed := h.map l2.cursor }

/-- The due events at the head of the list retired: the anchor becomes the end of the last of them, and the
channel is re-resolved (R70).  Nothing due changes nothing. -/
def Live.retire (l : Live) (p : ChannelParams) (h : Nat) : Live :=
  let due := dueEvents l p.retention h
  match due.getLast? with
  | none => l
  | some c => Live.reResolve { l with events := l.events.drop due.length, anchor := c.2.stop } p (some h)

/-- The record of an event with its hold end set or removed (R30). -/
def setHoldEnd (id : Nat) (he : Option Nat) (es : List EventRec) : List EventRec :=
  es.map fun e => if e.id = id then { e with holdEnd := he } else e

/-- A change of records made in the list the resolver works from, and in one that a completion has stored beside it
(R30, R105). -/
def Live.mapRecords (l : Live) (f : List EventRec → List EventRec) : Live :=
  { l with
    events := f l.events
    completion := l.completion.map fun c => { c with stage := match c.stage with
      | .stored es => .stored (f es)
      | st => st } }

/-- A hold released with the end `tEnd`: the held record takes the hold end, the timer stops and the channel is
re-resolved (R78). -/
def Live.release (l : Live) (p : ChannelParams) (h : Option Nat) (tEnd : Nat) : Live :=
  match l.hold with
  | none => l
  | some hr => Live.reResolve { l.mapRecords (setHoldEnd hr.eventId (some tEnd)) with hold := none } p h

/-- The event `id` held: the hold record with the timer at the limit, any hold end of the record removed, and
the channel re-resolved (R76). -/
def Live.startHold (l : Live) (p : ChannelParams) (h : Option Nat) (id limit : Nat) : Live :=
  Live.reResolve { l.mapRecords (setHoldEnd id none) with hold := some ⟨id, limit⟩ } p h

/-- The hold timer stepped by one arrival (R79). -/
def Live.stepHold (l : Live) : Live := { l with hold := l.hold.map fun hr => { hr with timer := hr.timer - 1 } }

/-- The notices of an advancing arrival at `h` under a DR output, in list order: the event that ended, the
events skipped, the event that began (R67). -/
def State.notices (s : State) (i : Slot) (l : Live) (followed : Option Cursor) (cur : Cursor) (h : Nat) : State :=
  let was := fun id => match followed with | some c => c.onEvent id | none => false
  let s1 := match followed with
    | some (.event e) => if cur.onEvent e.id then s else s.endNotice i e.id h
    | _ => s
  let skips := (l.events.zip l.timeline).filter fun c => decide (c.2.state = .skipped ∧ c.2.start = some h)
  let s2 := skips.foldl (fun s c => s.skipNotice i c.1.id h) s1
  match cur with
  | .event e => if was e.id then s2 else s2.startNotice i e.id h e.lateness l.custody.output
  | _ => s2

/-- The resolver's work on one channel for an arrival (R66): `h` is the H it carries, `advancing` as R66 step 3
gives it. -/
def State.resolverArrival (s : State) (h : Option Nat) (advancing : Bool) (i : Slot) : State :=
  onLive i s fun l =>
    match h with
    | none => s.setLive i l.stepHold
    | some h =>
      let cur := l.cursor h
      let s1 := if advancing && isDrOutput l.custody.output then s.notices i l l.followed cur h else s
      onLive i s1 fun l1 =>
        let p := s1.params i
        let l2 := if l1.inFlight then l1 else l1.retire p h
        let l3 := { l2.redraw p (some h) with followed := some cur }
        s1.setLive i l3.stepHold

end Sys2Proof.Machine
end

