-- ==== Sys2Proof/Machine/Custody.lean ====
section
/-! DEFINITION. Channel Custody, the takeover machinery of Takeover Cues and the shared acts of Handback:
conditions and evaluation (R110 to R118), entry to TAKING (R119), switch and miss (R142 to R146), loss and
return of ports (R124 to R127, R147, R157), return's switch (R158). -/

namespace Sys2Proof.Machine

/-! ## Conditions (R110 to R113) -/

/-- The condition L as the behind-since frame gives it (R112). -/
def lagging (h limit : Nat) : Option Nat → Bool
  | some b => decide (limit ≤ h - b)
  | none => false

/-- M recomputed (R110). -/
def Custody.recomputeM (linkPresent : Bool) (c : Custody) : Custody := { c with m := !linkPresent || !c.healthy }

/-- L recomputed while Port L is PRESENT; frozen while it is ABSENT (R112). -/
def Custody.recomputeL (linkPresent : Bool) (h limit : Nat) (c : Custody) : Custody :=
  if linkPresent then { c with l := lagging h limit c.behind } else c

/-- A PRESENCE entry on a channel: health, main revision and behind-since frame (R109, R111). -/
def Custody.presenceEntry (h : Option Nat) (sourceRev : Nat) (healthy : Bool) (mainRev : Nat) (c : Custody) : Custody :=
  { c with
    healthy := healthy
    mainRev := some mainRev
    behind := match h with
      | none => none
      | some h => if sourceRev < mainRev then some (c.behind.getD h) else none }

/-- The behind-since frame on the arrival that carries a time set (R111). -/
def Custody.restartBehind (h sourceRev : Nat) (c : Custody) : Custody :=
  { c with behind := match c.mainRev with
      | some r => if sourceRev < r then some h else none
      | none => none }

/-- The behind-since frame at the completion of a Port L commit (R104, R111). -/
def Custody.commitBehind (sourceRev : Nat) (c : Custody) : Custody :=
  { c with behind := match c.mainRev with
      | some r => if r ≤ sourceRev then none else c.behind
      | none => c.behind }

/-- The policy index 8·M + 4·S + 2·L + A (R116). -/
def Custody.index (c : Custody) : Nat :=
  8 * c.m.toNat + 4 * c.s.toNat + 2 * c.l.toNat + c.a.toNat

/-- The channel's custody record replaced. -/
def State.setCustody (s : State) (i : Slot) (c : Custody) : State :=
  onLive i s fun l => s.setLive i { l with custody := c }

/-! ## Starting a takeover (R119) -/

/-- The act of entry to TAKING: the takeover record, the switch frame, the state, the first cue and
CUSTODY_CHANGED (R119). -/
def State.enterTaking (s : State) (i : Slot) (target : DrPort) (origin : Origin) (mode : TakeMode) : State :=
  onLive i s fun l =>
    let p := s.params i
    let h := s.reference.h
    let frame := match mode with
      | .now => h + p.cueLead
      | .junction => junctionFrame l p h
    let t : Takeover :=
      { prevState := l.custody.state, prevOutput := l.custody.output, origin := origin, mode := mode
        firstChoice := match origin with
          | .policy => p.preferred
          | _ => target
        target := target, attempt := 1, cue := l.freshCue frame }
    let l1 := l.makeCue t frame
    (s.setLive i { l1 with custody := { l1.custody with state := .taking } }).raiseCustodyChanged

/-- The target of a takeover started by policy: the preferred DR port if PRESENT, else the other if PRESENT. -/
def State.policyTarget (s : State) (i : Slot) : Option DrPort :=
  let d := (s.params i).preferred
  if s.present (drPort d) then some d
  else if s.present (drPort (otherDr d)) then some (otherDr d)
  else none

/-- A policy take in a mode, with its outcome (R118). -/
def State.policyTake (s : State) (i : Slot) (mode : TakeMode) : State × EvalOutcome :=
  if s.reference.refState = .unset then (s.raisePolicyNotice, .timeUnset)
  else match s.policyTarget i with
    | some d => (s.enterTaking i d .policy mode, .takeStarted)
    | none => (s.raisePolicyNotice, .noTarget)

/-- The action at an index carried out (R118). -/
def State.carryOut (s : State) (i : Slot) : PolicyAction → State × EvalOutcome
  | .none => (s, .none)
  | .notify => (s.raisePolicyNotice, .notified)
  | .takeNow => s.policyTake i .now
  | .takeAtJunction => s.policyTake i .junction

/-- An evaluation of a channel in MAIN or SAFE at the index its conditions give; in any other state none is made
(R117). -/
def State.evaluate (s : State) (i : Slot) : State × Option EvalOutcome :=
  match s.live i with
  | none => (s, none)
  | some l =>
    match l.custody.state with
    | .main | .safe =>
      let idx := l.custody.index
      let action := (s.params i).policy.getD idx .none
      let r := s.carryOut i action
      let s1 := onLive i r.1 fun l1 =>
        r.1.setCustody i { l1.custody with lastEval := some ⟨s.houseFrame, idx, action, r.2⟩ }
      (s1, some r.2)
    | _ => (s, none)

/-- One event's changes to a channel's custody data, and one evaluation where they changed a condition (R117). -/
def State.changeConditions (s : State) (i : Slot) (f : Live → Custody → Custody) : State × Option EvalOutcome :=
  match s.live i with
  | none => (s, none)
  | some l =>
    let c := f l l.custody
    let s1 := s.setCustody i c
    if c.index = l.custody.index then (s1, none) else s1.evaluate i

/-- L recomputed on a frame arrival that carries H, after the behind-since restart of a time set (R111, R112). -/
def State.custodyArrival (s : State) (h : Nat) (timeSet : Bool) (i : Slot) : State :=
  (s.changeConditions i fun l c =>
    let c1 := if timeSet then c.restartBehind h l.sourceRev else c
    c1.recomputeL (s.present .L) h (s.params i).lagLimit).1

/-! ## The switch frame (R142 to R146) -/

/-- An arrival that carries `h` reaches a switch frame; the highest H reaches every one beyond it (R142, R158). -/
def reaches (r : HouseRate) (h frame : Nat) : Bool := decide (frame ≤ h) || decide (h = maxH r)

/-- The switch frame a channel waits for: its cue's while TAKING, its return's while RETURNING. -/
def Custody.awaited (c : Custody) : Option Nat :=
  match c.state with
  | .taking => c.takeover.map (·.cue.switchFrame)
  | .returning => c.ret.map (·.frame)
  | _ => none

/-- An arrival noted at a channel whose switch frame it reaches: the decision is due (log entry 4). -/
def State.markDue (s : State) (h : Nat) (i : Slot) : State :=
  onLive i s fun l =>
    match l.custody.awaited with
    | some f => if reaches s.house.rate h f then s.setCustody i { l.custody with switchDue := true } else s
    | none => s

/-- The switch at a switch frame reached with the cue READY (R143, R144). -/
def State.switchTo (s : State) (i : Slot) (l : Live) (t : Takeover) : State :=
  let out := drOutput t.target
  let s1 := s.setCustody i { l.custody with
    state := .dr, custodian := some (drPort t.target), output := out, a := false, takeover := none, switchDue := false }
  (s1.switchRecord i l.custody.output out (originReason t.origin) (some t.cue.number) t.cue.switchFrame
    (l.cursor t.cue.switchFrame)).raiseCustodyChanged

/-- Steps 1 and 2 of a miss: CUE_MISSED, and the fall to SAFE of a takeover from MAIN with M = 1 (R145). -/
def State.recordMiss (s : State) (i : Slot) (port : Option Port) (cause : MissCause) : State :=
  onLive i s fun l =>
    match l.custody.takeover with
    | none => s
    | some t =>
      let s1 := s.reportChannel i .cueMissed port (.miss t.cue.number t.attempt cause)
      if decide (l.custody.output = .main ∧ t.prevOutput = .main) && l.custody.m then
        let s2 := onLive i s1 fun l1 => s1.setCustody i { l1.custody with output := .safe, custodian := none }
        let s3 := s2.switchRecord i .main .safe .cueMiss (some t.cue.number) s.reference.h .noTimeline
        (s3.reportChannel i .safeEntry port (.cueNumber t.cue.number)).raiseCustodyChanged
      else s1

/-- The end of a takeover whose third attempt is missed (R146). -/
def State.endTakeover (s : State) (i : Slot) : State :=
  onLive i s fun l =>
    match l.custody.takeover with
    | none => s
    | some t =>
      (s.setCustody i { l.custody with
        state := if l.custody.output = .safe then .safe else t.prevState
        takeover := none, switchDue := false }).raiseCustodyChanged

/-- The target of a retry: the first-choice port if PRESENT; else, for a takeover from MAIN or SAFE, the other
automation port if PRESENT (R145). -/
def State.retryTarget (s : State) (t : Takeover) : Option DrPort :=
  if s.present (drPort t.firstChoice) then some t.firstChoice
  else if decide (t.prevState ≠ .dr) && s.present (drPort (otherDr t.firstChoice)) then some (otherDr t.firstChoice)
  else none

/-- A miss, with `left` attempts after this one (R145): a retry with a target waits for its switch frame, and one
without is missed at once with cause "no target". -/
def State.miss (i : Slot) : Nat → State → Option Port → MissCause → State
  | 0, s, port, cause => (s.recordMiss i port cause).endTakeover i
  | left + 1, s, port, cause =>
    let s1 := s.recordMiss i port cause
    match s1.live i with
    | none => s1
    | some l =>
      match l.custody.takeover with
      | none => s1
      | some t =>
        let t1 := { t with attempt := t.attempt + 1 }
        match s1.retryTarget t with
        | some d => s1.setLive i (l.makeCue { t1 with target := d } (s1.reference.h + (s1.params i).cueLead))
        | none => State.miss i left (s1.setLive i (l.setTakeover (some t1))) none .noTarget

/-- The cue of a channel missed, with its target as the report's port. -/
def State.missCue (s : State) (i : Slot) (t : Takeover) (cause : MissCause) : State :=
  State.miss i (Config.attempts - t.attempt) s (some (drPort t.target)) cause

/-- The Custody Controller's decision at a cue's switch frame, reached and still to be taken (R142). -/
def State.takeSwitchFrame (s : State) (i : Slot) : State :=
  onLive i s fun l =>
    match l.custody.state, l.custody.takeover with
    | .taking, some t =>
      if l.custody.switchDue then
        match t.cue.state with
        | .ready => s.switchTo i l t
        | .issued => s.missCue i t .notReady
        | .computing => s.missCue i t .computing
      else s
    | _, _ => s

/-- The Custody Controller's act at a return's switch frame, reached and still to be taken (R158). -/
def State.takeReturnFrame (s : State) (i : Slot) : State :=
  onLive i s fun l =>
    match l.custody.state, l.custody.ret with
    | .returning, some r =>
      if l.custody.switchDue then
        let s1 := s.setCustody i { l.custody with
          state := .main, custodian := some .L, output := .main, ret := none, switchDue := false }
        (s1.switchRecord i l.custody.output .main .return_ none r.frame (l.cursor r.frame)).raiseCustodyChanged
      else s
    | _, _ => s

/-! ## Returns withdrawn (R156, R157) -/

/-- A pending return cancelled on account of a port: steps 1 to 5 of R156. -/
def State.withdrawReturn (s : State) (i : Slot) (port : Port) : State :=
  onLive i s fun l =>
    match l.custody.ret with
    | none => s
    | some r =>
      let s1 := s.setCustody i { l.custody with state := .dr, ret := none, switchDue := false }
      let s2 := s1.reportChannel i .returnCancelled (some port) (.returnFrame r.frame)
      (s2.switchRecord i l.custody.output l.custody.output .cancel none s.reference.h .noTimeline).raiseCustodyChanged

/-! ## Loss and return of ports -/

/-- The loss of a TAKING channel's target: a retarget, or an immediate miss (R147). -/
def State.targetLost (s : State) (i : Slot) (l : Live) (t : Takeover) : State :=
  if decide (t.prevState ≠ .dr) && s.present (drPort (otherDr t.target)) then
    s.setLive i (l.makeCue { t with target := otherDr t.target } (s.reference.h + (s.params i).cueLead))
  else s.missCue i t .targetLost

/-- An automation port's change to ABSENT at one channel (R124, R125). -/
def State.drLost (d : DrPort) (i : Slot) (s : State) : State :=
  onLive i s fun l =>
    let mine := decide (l.custody.custodian = some (drPort d))
    let absent := s.reportChannel i .custodianAbsent (some (drPort d)) .none
    match l.custody.state with
    | .dr =>
      if mine then
        if s.present (drPort (otherDr d)) then absent.enterTaking i (otherDr d) .swap .now
        else absent.switchRecord i l.custody.output l.custody.output .custodianLost none s.reference.h .noTimeline
      else s
    | .taking =>
      match l.custody.takeover with
      | some t => if t.target = d then s.targetLost i l t else if mine then absent else s
      | none => s
    | .returning => if mine then absent else s
    | _ => s

/-- An automation port's change to PRESENT at one channel (R126). -/
def State.drBack (d : DrPort) (i : Slot) (s : State) : State :=
  onLive i s fun l =>
    if decide (l.custody.state = .dr ∧ l.custody.custodian = some (drPort (otherDr d))) &&
        !s.present (drPort (otherDr d)) then
      s.enterTaking i d .swap .now
    else s

/-- A channel's pending return cancelled by Port L's absence (R157). -/
def State.linkWithdraws (i : Slot) (s : State) : State :=
  if s.custodyState i = .returning then s.withdrawReturn i .L else s

/-- M and L of a channel recomputed at an event of Port L, and the channel evaluated once (R109, R110, R112). -/
def State.linkConditions (i : Slot) (s : State) : State :=
  (s.changeConditions i fun _ c =>
    (c.recomputeM (s.present .L)).recomputeL (s.present .L) s.reference.h (s.params i).lagLimit).1

/-- A change of a port to ABSENT at the Custody Controller: for Port L the pending returns are cancelled,
LINE_ERROR "link absent" is recorded, M is set and the channels are evaluated (R110, R112, R127, R157, log
entry 9); for an automation port R124 acts in slot order. -/
def State.presenceLost (s : State) (p : Port) : State :=
  match asDr p with
  | some d => forSlots (State.drLost d) s
  | none =>
    let s1 := forSlots State.linkWithdraws s
    let s2 := s1.report ⟨.lineError, none, some .L, s1.houseFrame, .line .linkAbsent⟩
    forSlots State.linkConditions s2

/-- A change of a port to PRESENT at the Custody Controller (R110, R112, R126). -/
def State.presenceBack (s : State) (p : Port) : State :=
  match asDr p with
  | some d => forSlots (State.drBack d) s
  | none => forSlots State.linkConditions s

end Sys2Proof.Machine
end

