-- ==== Sys2Proof/Machine/Batches.lean ====
section
/-! DEFINITION. Batches and Commit: staged records checked and read (R27 to R29), the trial list (R98, R101), the
validation at completion (R97 to R101) and the end of a commit (R102, R103). -/

namespace Sys2Proof.Machine

/-! ## Staged records -/

/-- A secondary's fields in range (R28). -/
def secondaryInRange (s : Secondary) : Bool :=
  within 1 65535 s.trigger && within 0 16777215 s.offset && within 0 16777215 s.duration

/-- The start mode a staged record gives, at a house rate, with whether its fixed start was adjusted; none where
R27 or R29 refuses it. -/
def stagedStart (r : HouseRate) (f : RecordFields) : Option (StartMode × Bool) :=
  match f.fixed, f.fixedStart with
  | false, none => if f.joinBit then none else some (.follow, false)
  | true, some t => (toFrame r t).map fun c => (.fixed c.1 (if f.joinBit then .late else .cut), c.2)
  | _, _ => none

/-- The kind a staged record gives, with its conditional fields; none where R27 refuses it. -/
def stagedContent (f : RecordFields) : Option Content :=
  match f.kind, f.mediaId, f.inPoint, f.source with
  | .clip, some cs, some ip, none =>
    if within 1 16 cs.length && cs.all (within 32 126) && decide (ip + f.nominal ≤ 4294967295) then
      some (.clip cs ip)
    else none
  | .live, none, none, some n => if within 0 1023 n then some (.live n) else none
  | _, _, _, _ => none

/-- A staged record checked against R27 to R29 and read as an event record without hold end, its written
revision still 0; with whether its fixed start was adjusted.  None is BAD_FIELD. -/
def readRecord (r : HouseRate) : StagedRecord → Option (EventRec × Bool)
  | .unreadable _ => none
  | .fields f =>
    if within 1 4294967295 f.eventId && decide (f.strayFlags = 0) && within 1 16777215 f.nominal &&
        decide (f.secondaries.length ≤ 4) && f.secondaries.all secondaryInRange then
      match stagedStart r f, stagedContent f with
      | some (st, adj), some c => some (⟨f.eventId, st, f.nominal, c, f.secondaries, none, 0⟩, adj)
      | _, _ => none
    else none

/-- The event id a staged record gives; 0 where its characters hold none. -/
def recordId : StagedRecord → Nat
  | .fields f => f.eventId
  | .unreadable (a :: b :: c :: d :: _) => ((a.toNat * 256 + b.toNat) * 256 + c.toNat) * 256 + d.toNat
  | .unreadable _ => 0

/-- An entry's kind, as a refusal reports it. -/
def entryKind : Entry → EntryKind
  | .insert _ _ => .insert
  | .replace _ _ => .replace
  | .delete _ => .delete

/-- An entry's event id, as a refusal reports it. -/
def entryId : Entry → Nat
  | .insert _ r => recordId r
  | .replace id _ => id
  | .delete id => id

/-! ## The trial list -/

/-- A trial list under construction: its events, the fixed starts adjusted, and the INSERTs dropped. -/
structure Trial where
  events : List EventRec
  adjusted : Nat
  dropped : Nat
  deriving DecidableEq, Repr

/-- Why a commit is refused: status, details, and the INSERTs dropped so far. -/
structure CommitError where
  status : Status
  detail : RefusalDetail
  dropped : Nat
  deriving DecidableEq, Repr

/-- A record placed immediately after a named event. -/
def insertAfter (id : Nat) (r : EventRec) : List EventRec → List EventRec
  | [] => []
  | e :: es => if e.id = id then e :: r :: es else e :: insertAfter id r es

/-- One entry of an EDIT batch applied to the trial (R98). -/
def applyEdit (rate : HouseRate) (t : Trial) : Entry → Except Status Trial
  | .insert pl rec =>
    match readRecord rate rec with
    | none => .error .badField
    | some (r, adj) =>
      match pl with
      | some id =>
        if !hasId id t.events then .error .notFound
        else if hasId r.id t.events then .error .duplicateId
        else .ok { t with events := insertAfter id r t.events, adjusted := t.adjusted + adj.toNat }
      | none =>
        if hasId r.id t.events then .error .duplicateId
        else .ok { t with events := r :: t.events, adjusted := t.adjusted + adj.toNat }
  | .replace id rec =>
    match readRecord rate rec with
    | none => .error .badField
    | some (r, adj) =>
      if r.id ≠ id then .error .badField
      else if !hasId id t.events then .error .notFound
      else .ok { t with
        events := t.events.map fun e => if e.id = id then r else e, adjusted := t.adjusted + adj.toNat }
  | .delete id =>
    if hasId id t.events then .ok { t with events := t.events.filter fun e => decide (e.id ≠ id) }
    else .error .notFound

/-- One entry of a RESYNC batch taken, with the ids of the kept events (R101). -/
def applyResync (rate : HouseRate) (kept : List EventRec) (t : Trial) : Entry → Except Status Trial
  | .insert _ rec =>
    if hasId (recordId rec) kept then .ok { t with dropped := t.dropped + 1 }
    else match readRecord rate rec with
      | none => .error .badField
      | some (r, adj) =>
        if hasId r.id t.events then .error .duplicateId
        else .ok { t with events := t.events ++ [r], adjusted := t.adjusted + adj.toNat }
  | _ => .error .badField

/-- The entries of a batch taken in buffer order; the first that fails is named by its index (R98, R101). -/
def runEntries (apply : Trial → Entry → Except Status Trial) : Nat → Trial → List Entry → Except CommitError Trial
  | _, t, [] => .ok t
  | k, t, e :: es =>
    match apply t e with
    | .error st => .error ⟨st, .entry k (entryKind e) (entryId e), t.dropped⟩
    | .ok t1 => runEntries apply (k + 1) t1 es

/-- The custody states in which the protection check is made (R100). -/
def protects : CustodyState → Bool
  | .taking => true
  | .dr => true
  | .returning => true
  | _ => false

/-- The kept events of a RESYNC: the current list from its head through the last event of the protected set
(R101). -/
def keptEvents (l : Live) : List EventRec :=
  if protects l.custody.state then
    match l.protectedSet.getLast? with
    | none => []
    | some p =>
      (l.events.takeWhile fun e => decide (e.id ≠ p.contents.id)) ++
        ((l.events.dropWhile fun e => decide (e.id ≠ p.contents.id)).take 1)
  else []

/-- The trial list that a batch's entries build (R98, R101). -/
def buildTrial (rate : HouseRate) (l : Live) (b : Batch) : Except CommitError Trial :=
  match b.kind with
  | .edit => runEntries (applyEdit rate) 0 ⟨l.events, 0, 0⟩ b.entries
  | .resync =>
    let kept := keptEvents l
    runEntries (applyResync rate kept) 0 ⟨kept, 0, 0⟩ b.entries

/-- The declared source revision of a SEALED batch. -/
def Batch.declared (b : Batch) : Option Nat :=
  match b.phase with
  | .sealed d _ => d
  | .opened _ => none

/-- The first refusal of R97 that a batch meets. -/
def batchRefusal (l : Live) (b : Batch) : Option Status :=
  if decide (b.port ≠ .L) && decide (l.custody.custodian ≠ some b.port) then some .notCustodian
  else if b.overrun then some .batchOverrun
  else if decide (l.mirrorRev = Config.lastRevision) ||
      (decide (b.kind = .edit) && decide (b.base ≠ some l.mirrorRev)) then some .revisionGap
  else if decide (b.port = .L) && decide (b.declared.getD 0 < l.sourceRev) then some .badField
  else none

/-- The counts and the protection of a complete trial (R99, R100). -/
def checkTrial (p : ChannelParams) (l : Live) (h : Option Nat) (t : Trial) : Except CommitError Trial :=
  if p.quota < t.events.length then .error ⟨.quota, .quota t.events.length p.quota, t.dropped⟩
  else if protects l.custody.state then
    match brokenBy l p.guard h t.events with
    | none => .ok t
    | some id =>
      let cur := resolvedOf id l.events l.timeline
      let tri := resolvedOf id t.events (resolve t.events l.anchor (l.hold.map (·.eventId)))
      .error ⟨.protected_, .protected_ id cur.1 tri.1 cur.2 tri.2, t.dropped⟩
  else .ok t

/-- The validation of a batch at completion (R97 to R101). -/
def validate (rate : HouseRate) (p : ChannelParams) (l : Live) (h : Option Nat) (b : Batch) :
    Except CommitError Trial :=
  match batchRefusal l b with
  | some st => .error ⟨st, .none, 0⟩
  | none =>
    match buildTrial rate l b with
    | .error e => .error e
    | .ok t => checkTrial p l h t

/-! ## Ending the commit -/

/-- The written revision of each trial record at its application (R22). -/
def applyWritten (rev : Nat) (current : List EventRec) (trial : List EventRec) : List EventRec :=
  trial.map fun e =>
    match current.find? fun c => decide (c.id = e.id) with
    | some c => if c.contents = e.contents then { e with writtenRev := c.writtenRev } else { e with writtenRev := rev }
    | none => { e with writtenRev := rev }

/-- A refused commit sets the stale flag (R33). -/
def setsStale (l : Live) (b : Batch) (st : Status) : Bool :=
  decide (b.port = .L) &&
    (decide (st = .batchOverrun) || (decide (st = .revisionGap) && decide (l.custody.state = .main)))

/-- The retirement deferred while the commit was in flight (R72). -/
def Live.retireDeferred (l : Live) (p : ChannelParams) : Option Nat → Live
  | some h => l.retire p h
  | none => l

/-- What the Custody Controller receives at a commit's completion: the source revision, the new S where the
stale flag changed, one evaluation where a condition changed, and a COMPUTING cue to compute (R102, R103, R104). -/
def State.custodyCommit (s : State) (i : Slot) (port : Port) (staleChanged : Bool) : State :=
  let s1 := (s.changeConditions i fun l c =>
    let c1 := if port = .L then c.commitBehind l.sourceRev else c
    let c2 := if c1.behind = c.behind then c1
      else c1.recomputeL (s.present .L) s.reference.h (s.params i).lagLimit
    if staleChanged then { c2 with s := l.stale } else c2).1
  onLive i s1 fun l => s1.setLive i l.computeCue

/-- The INSERT entries dropped, which a RESYNC's reply carries whatever the outcome (R101). -/
def droppedReport (b : Batch) (n : Nat) : Option Nat := if b.kind = .resync then some n else none

/-- The reply to a CLOSE BATCH at the end of its commit (R102, R103).  The list's new length is that of the reply's
moment, after the deferred retirement (DESIGN CHOICE, log entry 43). -/
def Live.commitReply (l : Live) (b : Batch) : CommitResult → Status × ReplyBody
  | .passed adjusted dropped =>
    (okOr (decide (0 < adjusted)),
      .committed l.mirrorRev l.sourceRev l.events.length adjusted (droppedReport b dropped))
  | .refused st detail dropped => (st, .commitRefused detail l.mirrorRev l.sourceRev (droppedReport b dropped))

/-- The end of a batch at completion: its buffer and lease go back, and the reply is sent unless its request was
abandoned (R96, R102, R103). -/
def State.endCommit (s : State) (i : Slot) (b : Batch) (r : CommitResult) : State :=
  onLive i s fun l =>
    let s1 := s.setLive i { l with batch := none, completion := none }
    match b.phase with
    | .sealed _ (some tag) => s1.replyLater b.port 9 tag (l.commitReply b r).1 (l.commitReply b r).2
    | _ => s1

/-- The completion of a commit that passes every check, its step 1 taken: the Mirror Store holds the new list (R103). -/
def Live.passedCompletion (l : Live) (b : Batch) (t : Trial) : Completion where
  stage := .stored (applyWritten (l.mirrorRev + 1) l.events t.events)
  sourceRev := if b.port = .L then b.declared.getD 0 else l.sourceRev
  stale := if b.port = .L ∧ b.kind = .resync then false else l.stale
  lengthBefore := l.events.length
  revBefore := l.mirrorRev
  result := .passed t.adjusted t.dropped

/-- The completion of a refused commit, its step 1 taken: the stale flag set where R33 requires it (R102). -/
def Live.refusedCompletion (l : Live) (b : Batch) (e : CommitError) : Completion where
  stage := .resolved
  sourceRev := l.sourceRev
  stale := l.stale || setsStale l b e.status
  lengthBefore := l.events.length
  revBefore := l.mirrorRev
  result := .refused e.status e.detail e.dropped

/-- The validation of a commit, and step 1 of its end: MIRROR_STALE is recorded where the stale flag is newly set
(R97 to R103). -/
def State.beginCompletion (s : State) (i : Slot) (l : Live) (b : Batch) : State :=
  match validate s.house.rate (s.params i) l s.houseFrame b with
  | .ok t => s.setLive i { l with completion := some (l.passedCompletion b t) }
  | .error e =>
    let c := l.refusedCompletion b e
    let s1 := s.setLive i { l with completion := some c }
    if c.stale = l.stale then s1 else s1.reportChannel i .mirrorStale (some .L) (.refusal e.status)

/-- Step 2 of R103: the channel takes the stored list and the raised mirror revision, and is re-resolved. -/
def Live.resolveStored (l : Live) (p : ChannelParams) (h : Option Nat) (c : Completion) (es : List EventRec) : Live :=
  Live.reResolve
    { l with events := es, mirrorRev := c.revBefore + 1, completion := some { c with stage := .resolved } } p h

/-- Step 3 of R103 and step 2 of R102: the deferred retirement. -/
def Live.retireStage (l : Live) (p : ChannelParams) (h : Option Nat) (c : Completion) : Live :=
  Live.retireDeferred { l with completion := some { c with stage := .retired } } p h

/-- The last steps of a completion, one act (log entry 27): the Custody Controller receives the outcome, and the batch
ends (R102, R103). -/
def State.endCompletion (s : State) (i : Slot) (l : Live) (b : Batch) (c : Completion) : State :=
  ((s.setLive i { l with sourceRev := c.sourceRev, stale := c.stale }).custodyCommit i b.port
    (decide (c.stale ≠ l.stale))).endCommit i b c.result

/-- The next step of the completion of the commit in flight on a channel; without one nothing happens (R94, R102,
R103, R105). -/
def State.commitStep (s : State) (i : Slot) : State :=
  onLive i s fun l =>
    match l.batch with
    | none => s
    | some b =>
      match b.phase with
      | .opened _ => s
      | .sealed _ _ =>
        match l.completion with
        | none => s.beginCompletion i l b
        | some c =>
          match c.stage with
          | .stored es => s.setLive i (l.resolveStored (s.params i) s.houseFrame c es)
          | .resolved => s.setLive i (l.retireStage (s.params i) s.houseFrame c)
          | .retired => s.endCompletion i l b c

/-- The completion of the commit in flight on a channel (R94): its next step, or every step left, of which no
completion has more than four; a step beyond the last does nothing (log entry 27). -/
def State.completeCommit (s : State) (i : Slot) : CompletionSpan → State
  | .oneStep => s.commitStep i
  | .whole => (((s.commitStep i).commitStep i).commitStep i).commitStep i

/-! ## The lease timer (R89, R90) and OPEN batches -/

/-- The lease timer of an OPEN batch lowered by one arrival (R89). -/
def State.leaseArrival (i : Slot) (s : State) : State :=
  onLive i s fun l =>
    match l.batch with
    | some b => match b.phase with
      | .opened n => s.setLive i { l with batch := some { b with phase := .opened (n - 1) } }
      | .sealed _ _ => s
    | none => s

/-- The expiry of a lease timer that stands at 0 (R90). -/
def State.leaseExpiry (s : State) (i : Slot) : State :=
  onLive i s fun l =>
    match l.batch with
    | some b => match b.phase with
      | .opened 0 => (s.setLive i { l with batch := none }).reportChannel i .leaseExpired (some b.port) .none
      | _ => s
    | none => s

/-- The newest 64 of the entries held, and whether one was discarded (R88). -/
def holdNewest (es : List Entry) : List Entry × Bool :=
  (es.drop (es.length - Config.bufferEntries), decide (Config.bufferEntries < es.length))

/-- The port has an OPEN batch on the channel. -/
def Live.openBatchOf (l : Live) (p : Port) : Option Batch :=
  match l.batch with
  | some b => match b.phase with
    | .opened _ => if b.port = p then some b else none
    | .sealed _ _ => none
  | none => none

/-! ## The hold limit (R79) -/

/-- The expiry of a hold timer that stands at 0: the release with T_end = H + guard, and HOLD_LIMIT recorded. -/
def State.holdExpiry (s : State) (i : Slot) : State :=
  onLive i s fun l =>
    match l.hold with
    | some hr =>
      if hr.timer = 0 then
        let p := s.params i
        (s.setLive i (l.release p s.houseFrame (s.reference.h + p.guard))).reportChannel i .holdLimit none
          (.heldEvent hr.eventId)
      else s
    | none => s

end Sys2Proof.Machine
end

