-- ==== Sys2Proof/Machine/Ports.lean ====
section
/-! DEFINITION. Command Ports: presence (R208, R209), the taking of a request (R204, R206, R207) and port reset
(R211). -/

namespace Sys2Proof.Machine

/-- A frame's end can come on a receive line that hunts or stands inside a frame (R204, R205, R212). -/
def hears : Receive → Bool
  | .hunting => true
  | .inFrame _ => true
  | .discarding => false
  | .inBreak => false

/-- The presence timeout of a port (R180). -/
def State.timeoutOf (s : State) (p : Port) : Nat :=
  if p = .L then s.house.linkTimeout else s.house.autoTimeout

/-- A well-formed request taken: the Port Unit hunts again, and the presence timer starts or restarts (R204,
R208). -/
def State.restartPresence (s : State) (p : Port) : State :=
  s.setPort p { s.port p with receive := .hunting, presence := some (s.timeoutOf p) }

/-- A well-formed request taken, with the consequences of a change to PRESENT before the request is dispatched
(R209). -/
def State.arrive (s : State) (p : Port) : State :=
  let s1 := s.restartPresence p
  if s.present p then s1 else s1.presenceBack p

/-- A request answered on its port. -/
def State.answer (s : State) (hd : Head) (code : Nat) (st : Status) (body : ReplyBody) : State :=
  s.reply hd.port code hd.tag st body

/-- A request refused by its checks, or carried out by `k`. -/
def State.conclude {α : Type} (s : State) (hd : Head) (code : Nat) (v : Verdict α) (k : α → State) : State :=
  match v with
  | .error (st, body) => s.answer hd code st body
  | .ok a => k a

/-- A request that only Ports A and B may send is refused NOT_PERMITTED from Port L (roles table, R207). -/
def fromDr {α : Type} (hd : Head) (rest : Verdict α) : Verdict α := refuseIf (decide (hd.port = .L)) .notPermitted rest

/-- A request that touches an event list is refused BUSY until store initialisation ends (R21). -/
def State.whenReady {α : Type} (s : State) (rest : Verdict α) : Verdict α := refuseIf (!s.storeReady) .busy rest

/-- The taking of a request: presence first (R209), PORT_BUSY while another is in progress (R206), BAD_FIELD for a
body its layout does not divide (R207), and otherwise `act`.  `refused` is what the Port Unit's own two answers carry.
-/
def takeRequestWith {α : Type} (refused : State → ReplyBody) (hd : Head) (code : Nat) (body : Body α)
    (act : α → State → State) (s : State) : State :=
  if hears (s.port hd.port).receive then
    let s1 := s.arrive hd.port
    if (s1.port hd.port).inProgress.isSome then s1.answer hd code .portBusy (refused s1)
    else match body with
      | .misfit => s1.answer hd code .badField (refused s1)
      | .fields f => act f s1
  else s

/-- The taking of a request whose answers by the Port Unit carry no field: every request but READ AS-RUN (R162). -/
def takeRequest {α : Type} (hd : Head) (code : Nat) (body : Body α) (act : α → State → State) (s : State) : State :=
  takeRequestWith (fun _ => .empty) hd code body act s

/-- A request whose reply is still to come is in progress on its port (R206). -/
def State.defer (s : State) (hd : Head) (code : Nat) : State :=
  s.setPort hd.port { s.port hd.port with inProgress := some ⟨code, hd.tag⟩ }

/-- The presence timer of a PRESENT port lowered by one arrival (R208). -/
def State.presenceArrival (s : State) (p : Port) : State :=
  s.setPort p { s.port p with presence := (s.port p).presence.map (· - 1) }

/-- The expiry of a presence timer that stands at 0: the port becomes ABSENT, with the consequences (R209). -/
def State.expirePresence (s : State) (p : Port) : State :=
  if (s.port p).presence = some 0 then (s.setPort p { s.port p with presence := none }).presenceLost p else s

/-- A port reset at one channel: an OPEN batch of the port is discarded, the reply of a SEALED one is abandoned
(R96), and a READY the port has given is withdrawn (R141).  The port is then free to open and close a batch on another
channel, so that after a reset it may have two commits in flight, against R83's last sentence (DESIGN CHOICE, log entry
37). -/
def Live.portReset (l : Live) (p : Port) : Live :=
  let l1 : Live := match l.batch with
    | some b =>
      if b.port = p then
        match b.phase with
        | .opened _ => { l with batch := none }
        | .sealed d _ => { l with batch := some { b with phase := .sealed d none } }
      else l
    | none => l
  match asDr p with
  | some d => l1.withdrawReady d
  | none => l1

/-- A port reset of a port, whose receive line then stands as `receive` (R211). -/
def State.resetPortOf (s : State) (p : Port) (receive : Receive) : State :=
  let s1 := s.setPort p { s.port p with
    receive := receive, inProgress := none, reasons := ⟨false, false, false, false⟩, readPos := none, follow := false }
  let s2 : State := { s1 with reference := { s1.reference with
    pendingSet := match s1.reference.pendingSet with
      | some ps => if ps.port = p then none else some ps
      | none => none } }
  forSlots (fun i s => onLive i s fun l => s.setLive i (l.portReset p)) s2

end Sys2Proof.Machine
end

