-- ==== Sys2Proof/Machine/Arrivals.lean ====
section
/-! DEFINITION. Frame arrivals: the Reference Counter's part (R3 to R8, R18) and the delivery to every block that
keeps a frame-based timer or schedule (R66, R89, R112, R142, R158, R208). -/

namespace Sys2Proof.Machine

/-- What an arrival carries (R3): H or none, the time-set mark, and whether it is advancing (R66 step 3). -/
structure Arrival where
  h : Option Nat
  timeSet : Bool
  advancing : Bool
  deriving DecidableEq, Repr

/-- The reference state that an arrival from a source leaves where H is defined (R4, R5, R6, R18). -/
def sourceState : ArrivalSource → RefState
  | .pulse => .locked
  | .timebase => .flywheel

/-- The Reference Counter after an arrival that carries no time set (R5, R6, R8). -/
def Reference.advance (r : Reference) (rate : HouseRate) (moment : Nat) (src : ArrivalSource) : Reference :=
  match r.refState with
  | .unset => { r with last := some ⟨moment, src⟩ }
  | _ => { r with refState := sourceState src, h := nextH rate r.h, last := some ⟨moment, src⟩ }

/-- The Reference Counter after the arrival on which a time set takes effect (R18). -/
def Reference.applySet (moment : Nat) (src : ArrivalSource) (frame : Nat) : Reference :=
  { refState := sourceState src, h := frame, last := some ⟨moment, src⟩, pendingSet := none }

/-- REF_LOST recorded on entry to FLYWHEEL (R6, R18). -/
def State.recordRefLost (s : State) (before : RefState) : State :=
  if s.reference.refState = .flywheel ∧ before ≠ .flywheel then
    s.report ⟨.refLost, none, none, some s.reference.h, .none⟩
  else s

/-- The Reference Counter's part of an arrival: H advanced, or a pending time set decided and answered (R18).  The
reply to SET TIME is formed here, after REF_LOST and before another block takes the arrival, so that its attention set
shows the FAULT that REF_LOST raised and no reason that the other blocks raise on it (DESIGN CHOICE, log entry 52). -/
def State.referenceArrival (s : State) (moment : Nat) (src : ArrivalSource) : State × Arrival :=
  let before := s.reference.refState
  let natural : State := { s with reference :=
    { s.reference.advance s.house.rate moment src with pendingSet := none } }
  let plain : Arrival :=
    { h := natural.houseFrame, timeSet := false
      advancing := decide (natural.houseFrame = some (s.reference.h + 1)) }
  match s.reference.pendingSet with
  | none => (natural.recordRefLost before, plain)
  | some ps =>
    if s.channelActive then
      ((natural.recordRefLost before).replyLater ps.port 3 ps.tag .channelActive .empty, plain)
    else
      let s1 := State.recordRefLost { s with reference := Reference.applySet moment src ps.frame } before
      (s1.replyLater ps.port 3 ps.tag (okOr ps.adjusted)
        (.timeSet (s1.frame ps.frame) s1.reference.refState),
        { h := some ps.frame, timeSet := true, advancing := false })

/-- What is due at a channel's switch frame, taken by the Custody Controller (R142, R158). -/
def State.takeDue (i : Slot) (s : State) : State := (s.takeSwitchFrame i).takeReturnFrame i

/-- What an earlier arrival made due and no command has taken, taken before the next arrival: expiries and
switch frames belong to the arrival that brings them (log entry 3). -/
def State.settleDue (s : State) : State :=
  let s1 := forSlots (fun i s => s.holdExpiry i) s
  let s2 := forSlots State.takeDue s1
  let s3 := forSlots (fun i s => s.leaseExpiry i) s2
  ((s3.expirePresence .L).expirePresence .A).expirePresence .B

/-- The Custody Controller's note of the switch frames an arrival reaches, and its decision on those it takes
before the Timeline Resolver's work (R68, log entry 4). -/
def State.custodyNotes (s : State) (a : Arrival) (custodyFirst : List Nat) : State :=
  match a.h with
  | none => s
  | some h => custodyFirst.foldl (fun s n => onSlot n s fun i => s.takeDue i) (forSlots (fun i s => s.markDue h i) s)

/-- A frame arrival delivered (R3): what was due is settled, the Reference Counter counts, and then the Custody
Controller, the Timeline Resolver, the Batch Engine and the Port Units take it. -/
def State.deliverArrival (s : State) (moment : Nat) (src : ArrivalSource) (custodyFirst : List Nat) : State :=
  let r := s.settleDue.referenceArrival moment src
  let a := r.2
  let s1 := r.1.custodyNotes a custodyFirst
  let s2 := forSlots (fun i s => s.resolverArrival a.h a.advancing i) s1
  let s3 := match a.h with
    | none => s2
    | some h => forSlots (fun i s => s.custodyArrival h a.timeSet i) s2
  let s4 := forSlots State.leaseArrival s3
  ((s4.presenceArrival .L).presenceArrival .A).presenceArrival .B

/-- A pulse is late enough to count (R5). -/
def pulseCounts (rate : HouseRate) (moment : Nat) : Option LastArrival → Bool
  | none => true
  | some la => decide (nominalPeriod rate / 2 ≤ moment - la.moment)

/-- A repeat pulse (R5): the pulse an inserted arrival stood for realigns the timebase and ends a FLYWHEEL; one
after a pulse arrival is discarded. -/
def Reference.repeatPulse (r : Reference) (moment : Nat) : Reference :=
  match r.last with
  | some ⟨_, .timebase⟩ =>
    { r with
      refState := match r.refState with
        | .flywheel => .locked
        | st => st
      last := some ⟨moment, .pulse⟩ }
  | _ => r

/-- The moment at which the internal timebase supplies a frame: 1.5 nominal periods after a pulse arrival or the
release of reset, one after an inserted arrival (R2, R6). -/
def timebaseDeadline (rate : HouseRate) : Option LastArrival → Nat
  | none => nominalPeriod rate / 2 * 3
  | some ⟨m, .pulse⟩ => m + nominalPeriod rate / 2 * 3
  | some ⟨m, .timebase⟩ => m + nominalPeriod rate

end Sys2Proof.Machine
end

