-- ==== Sys2Proof/Machine/Events.lean ====
section
/-! DEFINITION. The commands that are the part's own events and the events of its lines: reset, arrivals, expiries,
completions, switch frames and line conditions. -/

namespace Sys2Proof.Machine

/-- The answer of a command: it always leaves a next state. -/
abbrev Answer := Host.Outcome State Fault Refusal

/-- The line rate a rate-select code gives (pin table). -/
def baudOf : Nat → Nat
  | 1 => 230400
  | 2 => 460800
  | 3 => 921600
  | 4 => 1500000
  | 5 => 3000000
  | _ => 115200

/-- DEVICE_RESET: every block in its initial state, the port rates sampled, store initialisation begun (R21,
R213). -/
def execDeviceReset (pins : RatePins) (s : State) : Answer :=
  .next { resetState (baudOf pins.l) (baudOf pins.a) (baudOf pins.b) with pending := s.pending }

/-- STORE_INITIALISATION_END: the store becomes ready, with every slot free (R21). -/
def execStoreInitialisationEnd (s : State) : Answer := .next { s with storeReady := true }

/-- HOUSE_PULSE: a frame arrival, or a repeat (R5).  A pulse whose moment lies past a timebase deadline that no
INSERTED_ARRIVAL has taken is one arrival at its own moment, and no missed inserted arrival is supplied first (DESIGN
CHOICE, log entry 33: on the part it cannot come about). -/
def execHousePulse (moment : Nat) (custodyFirst : List Nat) (s : State) : Answer :=
  .next (if pulseCounts s.house.rate moment s.reference.last then s.deliverArrival moment .pulse custodyFirst
    else { s with reference := s.reference.repeatPulse moment })

/-- INSERTED_ARRIVAL: an inserted frame arrival, once the deadline has passed (R6).  One whose moment lies past further
deadlines is one arrival at its own moment (DESIGN CHOICE, log entry 33). -/
def execInsertedArrival (moment : Nat) (custodyFirst : List Nat) (s : State) : Answer :=
  .next (if timebaseDeadline s.house.rate s.reference.last ≤ moment then
      s.deliverArrival moment .timebase custodyFirst
    else s)

/-- HOLD_LIMIT: the expiry of a channel's hold timer (R79). -/
def execHoldLimit (slot : Nat) (s : State) : Answer := .next (onSlot slot s fun i => s.holdExpiry i)

/-- LEASE_EXPIRED: the expiry of an OPEN batch's lease timer (R90). -/
def execLeaseExpired (slot : Nat) (s : State) : Answer := .next (onSlot slot s fun i => s.leaseExpiry i)

/-- PRESENCE_EXPIRY: the expiry of a port's presence timer (R209). -/
def execPresenceExpiry (p : Port) (s : State) : Answer := .next (s.expirePresence p)

/-- COMMIT_COMPLETION: the completion of the commit in flight on a channel, whole or its next step alone (R94, R105). -/
def execCommitCompletion (completion : CompletionFields) (s : State) : Answer :=
  .next (onSlot completion.slot s fun i => s.completeCommit i completion.span)

/-- SWITCH_FRAME_REACHED: the Custody Controller's decision at a cue's switch frame (R142). -/
def execSwitchFrameReached (slot : Nat) (s : State) : Answer := .next (onSlot slot s fun i => s.takeSwitchFrame i)

/-- RETURN_SWITCH_FRAME: the Custody Controller's switch at a return's switch frame (R158). -/
def execReturnSwitchFrame (slot : Nat) (s : State) : Answer := .next (onSlot slot s fun i => s.takeReturnFrame i)

/-- What a bad frame leaves its receive line doing (R205). -/
def afterBadFrame : BadFrameCause → Receive
  | .length => .discarding
  | _ => .hunting

/-- BAD_FRAME: the characters discarded, BAD_FRAME replied with code 0 and tag 0, LINE_ERROR reported (R205). -/
def execBadFrame (p : Port) (cause : BadFrameCause) (s : State) : Answer :=
  .next (if hears (s.port p).receive then
      let s1 := s.setPort p { s.port p with receive := afterBadFrame cause }
      (s1.reply p 0 0 .badFrame .empty).report ⟨.lineError, none, some p, s1.houseFrame, .line .badFrame⟩
    else s)

/-- BREAK: a port reset; the rest of the break is ignored (R212).  A line already in a break shows no second one. -/
def execLineBreak (p : Port) (s : State) : Answer :=
  .next (if (s.port p).receive = .inBreak then s else s.resetPortOf p .inBreak)

/-- LINE_IDLE: the Port Unit stops discarding and hunts again (R205). -/
def execLineIdle (p : Port) (s : State) : Answer :=
  .next (if (s.port p).receive = .discarding then s.setPort p { s.port p with receive := .hunting } else s)

/-- LINE_RETURNS_TO_MARK: reception resumes after a break (R212). -/
def execLineReturnsToMark (p : Port) (s : State) : Answer :=
  .next (if (s.port p).receive = .inBreak then s.setPort p { s.port p with receive := .hunting } else s)

end Sys2Proof.Machine
end

