-- ==== Sys2Proof/Machine/BatchCommands.lean ====
section
/-! DEFINITION. The requests on batches: OPEN BATCH (R84, R85), ADD ENTRIES (R87, R88), CLOSE BATCH (R93) and ABORT
BATCH (R92). -/

namespace Sys2Proof.Machine

/-- The batch of a channel replaced. -/
def State.setBatch (s : State) (i : Slot) (l : Live) (b : Option Batch) : State := s.setLive i { l with batch := b }

/-- The checks of OPEN BATCH (R84): the channel and the kind. -/
def State.checkOpenBatch (s : State) (hd : Head) (f : OpenFields) : Verdict (Slot × Live × BatchKind) :=
  s.whenReady <|
  match f.kind with
  | none => .error (.badField, .empty)
  | some k =>
    refuseIf (decide (k = .edit) && f.base.isNone) .badField <|
    refuseIf (decide (k = .resync ∧ hd.port ≠ .L)) .notPermitted <|
    s.addressed hd.port f.channel fun i l =>
      refuseIf l.inFlight .busy <|
      refuseWith l.holder.isSome .leaseHeld (.leaseHolder l.holder) <|
      refuseIf (decide (hd.port ≠ .L ∧ l.custody.custodian ≠ some hd.port)) .notCustodian <|
      refuseIf (decide (s.freeBuffers = 0)) .noBuffer <|
      .ok (i, l, k)

/-- The batch that an accepted OPEN BATCH opens (R85). -/
def openedBatch (p : Port) (k : BatchKind) (base : Option Nat) (timeout : Nat) : Batch where
  port := p
  kind := k
  base := match k with
    | .edit => base
    | .resync => none
  entries := []
  received := 0
  overrun := false
  phase := .opened timeout

/-- OPEN BATCH (R84, R85). -/
def execOpenBatch (hd : Head) (body : Body OpenFields) (s : State) : Answer :=
  .next (takeRequest hd 7 body (fun f s =>
    s.conclude hd 7 (s.checkOpenBatch hd f) fun c =>
      let s1 := s.setBatch c.1 c.2.1 (some (openedBatch hd.port c.2.2 f.base s.house.leaseTimeout))
      s1.answer hd 7 .ok (.batchOpened c.1.val (s1.service c.1) c.2.1.mirrorRev c.2.1.sourceRev s1.house.leaseTimeout
        s1.freeBuffers)) s)

/-- The requesting port's OPEN batch on the channel a request names, or its refusal (R87, R93). -/
def State.ownBatch {α : Type} (s : State) (hd : Head) (ch : Nat) (k : Slot → Live → Batch → Verdict α) : Verdict α :=
  s.whenReady <|
  s.addressed hd.port ch fun i l =>
    match l.openBatchOf hd.port with
    | none => .error (.noBatch, .empty)
    | some b => k i l b

/-- The checks of ADD ENTRIES (R87). -/
def State.checkAddEntries (s : State) (hd : Head) (f : AddFields) : Verdict (Slot × Live × Batch) :=
  s.ownBatch hd f.channel fun i l b =>
    refuseIf (f.badKind || !within 1 16 f.entries.length) .badField (.ok (i, l, b))

/-- A batch with entries appended, the newest 64 held, and its lease timer restarted (R87, R88, R89). -/
def Batch.append (b : Batch) (es : List Entry) (timeout : Nat) : Batch :=
  let r := holdNewest (b.entries ++ es)
  { b with
    entries := r.1
    received := min (b.received + es.length) 4294967295
    overrun := b.overrun || r.2
    phase := .opened timeout }

/-- ADD ENTRIES (R87, R88). -/
def execAddEntries (hd : Head) (body : Body AddFields) (s : State) : Answer :=
  .next (takeRequest hd 8 body (fun f s =>
    s.conclude hd 8 (s.checkAddEntries hd f) fun c =>
      let b := c.2.2.append f.entries s.house.leaseTimeout
      (s.setBatch c.1 c.2.1 (some b)).answer hd 8 .ok (.entriesHeld b.entries.length b.received b.overrun)) s)

/-- The declared source revision that a CLOSE BATCH records: that of a Port L request (R93). -/
def declaredBy (hd : Head) (f : CloseFields) : Option Nat := if hd.port = .L then f.declared else none

/-- CLOSE BATCH: the batch is sealed and a commit is in flight; the reply comes at its completion (R93).  R93 lists no
refusal for a port whose commit on another channel goes on after a port reset, and the model makes none (DESIGN CHOICE,
log entry 37). -/
def execCloseBatch (hd : Head) (body : Body CloseFields) (s : State) : Answer :=
  .next (takeRequest hd 9 body (fun f s =>
    s.conclude hd 9 (s.ownBatch hd f.channel fun i l b => .ok (i, l, b)) fun c =>
      (s.setBatch c.1 c.2.1 (some { c.2.2 with phase := .sealed (declaredBy hd f) (some hd.tag) })).defer hd 9) s)

/-- The checks of ABORT BATCH (R92). -/
def State.checkAbortBatch (s : State) (hd : Head) (ch : Nat) : Verdict (Slot × Live) :=
  s.whenReady <|
  s.addressed hd.port ch fun i l =>
    refuseIf (l.inFlight && decide (l.holder = some hd.port)) .busy (.ok (i, l))

/-- ABORT BATCH: the requesting port's OPEN batch is discarded; without one the request has no effect (R92). -/
def execAbortBatch (hd : Head) (body : Body Nat) (s : State) : Answer :=
  .next (takeRequest hd 10 body (fun ch s =>
    s.conclude hd 10 (s.checkAbortBatch hd ch) fun c =>
      match c.2.openBatchOf hd.port with
      | some _ => (s.setBatch c.1 c.2 none).answer hd 10 .ok (.leaseHolder none)
      | none => s.answer hd 10 .ok (.leaseHolder c.2.holder)) s)

end Sys2Proof.Machine
end

