-- ==== Sys2Proof/Machine/ChannelCommands.lean ====
section
/-! DEFINITION. The requests on the Channel Table: CONFIGURE CHANNEL (R184 to R189) and READ CHANNEL (R191,
R192). -/

namespace Sys2Proof.Machine

/-! ## CONFIGURE CHANNEL -/

/-- The parameter set that a CONFIGURE CHANNEL leaves (R184). -/
def channelResult (f : ChannelFields) (p : ChannelParams) : ChannelParams where
  serviceId := match f.serviceId with
    | .keep => p.serviceId
    | .give n => serviceIdOf n
  preferred := keepEnum p.preferred f.preferred
  policy := match f.policy with
    | .keep => p.policy
    | .give as => as.map fun a => a.getD .none
  guard := keepOr p.guard f.guard
  cueLead := keepOr p.cueLead f.cueLead
  horizon := keepOr p.horizon f.horizon
  lagLimit := keepOr p.lagLimit f.lagLimit
  retention := keepOr p.retention f.retention
  quota := keepOr p.quota f.quota

/-- A given policy table holds none but the four actions. -/
def policyKnown : Keep (List (Option PolicyAction)) → Bool
  | .keep => true
  | .give as => as.all Option.isSome

/-- A CONFIGURE CHANNEL meets the BAD_FIELD condition of R184. -/
def channelMalformed (f : ChannelFields) (p : ChannelParams) : Bool :=
  f.reserved || f.inService.isNone || !keepKnown f.preferred || !policyKnown f.policy ||
  !paramsInRange (channelResult f p) || (decide (f.inService = some true) && (channelResult f p).serviceId.isNone)

/-- The in-service channel other than `i` that holds a service ID. -/
def State.otherHolder (s : State) (i : Slot) (id : Option Nat) : Option Slot :=
  (s.inService.find? fun c => decide (c.1 ≠ i ∧ (s.params c.1).serviceId = id)).map (·.1)

/-- The quota sum with channel `i` in service at a quota (R186). -/
def State.quotaSumWith (s : State) (i : Slot) (quota : Nat) : Nat :=
  ((s.inService.filter fun c => decide (c.1 ≠ i)).map fun c => (s.params c.1).quota).sum + quota

/-- The length of a channel's list, 0 when it has none. -/
def State.listLength (s : State) (i : Slot) : Nat := ((s.live i).map fun l => l.events.length).getD 0

/-- A channel may be reconfigured: it is IDLE, or in MAIN with no lease held (R184). -/
def State.reconfigurable (s : State) (i : Slot) : Bool :=
  match s.live i with
  | none => true
  | some l => decide (l.custody.state = .main) && l.holder.isNone

/-- The last two checks of R184, of a channel to be in service. -/
def State.checkEntry (s : State) (i : Slot) (p : ChannelParams) (rest : Verdict (Slot × ChannelParams × Bool)) :
    Verdict (Slot × ChannelParams × Bool) :=
  match s.otherHolder i p.serviceId with
  | some j => .error (.duplicateService, .serviceHeldBy j.val)
  | none =>
    let sum := s.quotaSumWith i p.quota
    refuseWith (decide (Config.poolSlots < sum)) .quota (.quotaRefused sum (s.listLength i) .sum) <|
    refuseWith (decide (p.quota < s.listLength i)) .quota (.quotaRefused sum (s.listLength i) .listLength) <|
    rest

/-- The checks of CONFIGURE CHANNEL (R184): the slot, the resulting set, and the service setting.  The uniqueness of
the service ID and both QUOTA limits concern a channel to be in service: "out of service" on a channel in MAIN, with a
quota below its list's length, meets neither (R25 limits the quota of an in-service channel, and the list goes with the
exit; DESIGN CHOICE, log entry 34). -/
def State.checkConfigureChannel (s : State) (hd : Head) (f : ChannelFields) : Verdict (Slot × ChannelParams × Bool) :=
  s.whenReady <|
  fromDr hd <|
  match slotOf f.channel with
  | none => .error (.unknownChannel, .empty)
  | some i =>
    let p := channelResult f (s.params i)
    let enter := decide (f.inService = some true)
    refuseIf (channelMalformed f (s.params i)) .badField <|
    refuseIf ((s.live i).any Live.inFlight) .busy <|
    refuseIf (!s.reconfigurable i) .channelActive <|
    refuseIf (!paramsRelated p) .configInvalid <|
    if enter then s.checkEntry i p (.ok (i, p, enter)) else .ok (i, p, enter)

/-- The parameters of a slot stored. -/
def State.setParams (s : State) (i : Slot) (p : ChannelParams) : State := s.setChan i { s.chan i with params := p }

/-- The custody record of a channel that enters service (R188). -/
def enteringCustody (linkPresent : Bool) : Custody where
  state := .main
  custodian := some .L
  output := .main
  m := !linkPresent
  s := true
  l := false
  a := false
  healthy := true
  mainRev := none
  behind := none
  lastEval := none
  cueCounter := 0
  takeover := none
  ret := none
  switchDue := false

/-- The state that a channel has at every block when it enters service (R188). -/
def enteringLive (linkPresent : Bool) (h : Option Nat) : Live where
  events := []
  mirrorRev := 0
  sourceRev := 0
  stale := true
  timeline := []
  anchor := none
  timelineRev := 0
  protectedSet := []
  followed := h.map fun _ => .noTimeline
  hold := none
  batch := none
  completion := none
  custody := enteringCustody linkPresent
  segment := none
  latestSeq := 0
  flags := []

/-- The reply to an accepted CONFIGURE CHANNEL (R187 to R189). -/
def State.configured (s : State) (hd : Head) (i : Slot) (outcome : Option EvalOutcome) (returned : Option Nat) : State :=
  s.answer hd 5 .ok (.configured i.val (s.custodyState i) (s.params i) s.quotaSum outcome returned)

/-- An IDLE channel put in service (R188). -/
def State.enterService (s : State) (i : Slot) (p : ChannelParams) : State :=
  (s.setChan i { params := p, live := some (enteringLive (s.present .L) s.houseFrame) }).raiseCustodyChanged

/-- A port's read position, absent if it names a channel that leaves service (R38). -/
def State.forgetChannel (s : State) (i : Slot) (p : Port) : State :=
  s.setPort p { s.port p with readPos := (s.port p).readPos.filter fun r => decide (r.slot ≠ i) }

/-- A channel in MAIN taken out of service, and then its parameters stored (R189).  By R170 the log would close an
open segment at the H of the exit; a channel in MAIN has none. -/
def State.leaveService (s : State) (i : Slot) (p : ChannelParams) : State :=
  let s1 := s.closeSegment i s.reference.h
  let s2 := s1.setChan i { params := p, live := none }
  (((s2.forgetChannel i .L).forgetChannel i .A).forgetChannel i .B).raiseCustodyChanged

/-- The parameters of a channel in MAIN changed in place: the protected set at a changed guard, L at a changed lag
limit, with the outcome of the evaluation made (R187). -/
def State.changeInPlace (s : State) (i : Slot) (p : ChannelParams) : State × Option EvalOutcome :=
  let old := s.params i
  let s1 := s.setParams i p
  let s2 := if p.guard = old.guard then s1 else onLive i s1 fun l => s1.setLive i (l.redraw p s1.houseFrame)
  if p.lagLimit = old.lagLimit then (s2, none)
  else s2.changeConditions i fun _ c => c.recomputeL (s2.present .L) s2.reference.h p.lagLimit

/-- The four forms of an accepted CONFIGURE CHANNEL (R184). -/
def State.configure (s : State) (hd : Head) (i : Slot) (p : ChannelParams) (enter : Bool) : State :=
  match s.live i, enter with
  | none, false => (s.setParams i p).configured hd i none none
  | none, true => (s.enterService i p).configured hd i none none
  | some _, true =>
    let r := s.changeInPlace i p
    r.1.configured hd i r.2 none
  | some l, false => (s.leaveService i p).configured hd i none (some l.events.length)

/-- CONFIGURE CHANNEL (R184 to R189). -/
def execConfigureChannel (hd : Head) (body : Body ChannelFields) (s : State) : Answer :=
  .next (takeRequest hd 5 body (fun f s =>
    s.conclude hd 5 (s.checkConfigureChannel hd f) fun c => s.configure hd c.1 c.2.1 c.2.2) s)

/-! ## READ CHANNEL -/

/-- The port whose commit is in flight on a channel (R192). -/
def Live.closing (l : Live) : Option Port := if l.inFlight then l.holder else none

/-- The list length and mirror revision that READ CHANNEL shows: those from before the commit while its completion is
under way (R95). -/
def Live.shownMirror (l : Live) : Nat × Nat :=
  match l.completion with
  | some c => (c.lengthBefore, c.revBefore)
  | none => (l.events.length, l.mirrorRev)

/-- What READ CHANNEL carries for an in-service channel (R192).  The free pool slots are those of the pool as it
stands, a list already stored by a completion under way included (DESIGN CHOICE, log entry 27).  While RETURNING, the
agreed event is its id with the offset agreed (DEDUCED, log entry 38). -/
def State.liveReport (s : State) (l : Live) : LiveReport where
  length := l.shownMirror.1
  mirrorRev := l.shownMirror.2
  sourceRev := l.sourceRev
  stale := l.stale
  freeSlots := s.freeSlots
  timelineRev := l.timelineRev
  anchor := l.anchor.map s.frame
  hold := l.hold
  holder := l.holder
  closing := l.closing
  custodian := l.custody.custodian
  output := l.custody.output
  m := l.custody.m
  s := l.custody.s
  l := l.custody.l
  a := l.custody.a
  healthy := l.custody.healthy
  mainRev := l.custody.mainRev
  behind := l.custody.behind.map s.frame
  lastEval := l.custody.lastEval
  evalFrame := l.custody.lastEval.bind fun e => e.frame.map s.frame
  cueCounter := l.custody.cueCounter
  latestSeq := l.latestSeq
  segment := l.segment.map fun g => (g.eventId, g.output)
  takeover := match l.custody.state with
    | .taking => l.custody.takeover.map fun t =>
        ⟨t.target, s.frame t.cue.switchFrame, t.cue.number, t.cue.state, t.attempt⟩
    | _ => none
  ret := match l.custody.state with
    | .returning => l.custody.ret.map fun r => (s.frame r.frame, r.eventId, r.offset)
    | _ => none

/-- The reply to READ CHANNEL, taken whole (R191, R192). -/
def State.channelReport (s : State) (i : Slot) : ChannelReport where
  slot := i.val
  inService := (s.live i).isSome
  params := s.params i
  house := s.house
  quotaSum := s.quotaSum
  room := Config.poolSlots - s.quotaSum
  state := s.custodyState i
  live := (s.live i).map s.liveReport

/-- The slot that a READ CHANNEL names: an IDLE one is not refused (R191).  A refusal carries no field of the mirror
state (DESIGN CHOICE, log entry 51). -/
def State.checkReadChannel (s : State) (hd : Head) (ch : Nat) : Verdict Slot :=
  match hd.port with
  | .L =>
    match s.slotOfService ch with
    | none => .error (.unknownService, .empty)
    | some i => .ok i
  | _ =>
    match slotOf ch with
    | none => .error (.unknownChannel, .empty)
    | some i => .ok i

/-- READ CHANNEL (R191, R192). -/
def execReadChannel (hd : Head) (body : Body Nat) (s : State) : Answer :=
  .next (takeRequest hd 6 body (fun ch s =>
    s.conclude hd 6 (s.checkReadChannel hd ch) fun i => s.answer hd 6 .ok (.channel (s.channelReport i))) s)

end Sys2Proof.Machine
end

