-- ==== Sys2Proof/Machine/CustodyCommands.lean ====
section
/-! DEFINITION. The requests on custody and cues: TAKE (R120, R121), CANCEL TAKE (R122), FETCH CUE (R139), CUE READY
(R140) and ARM (R115). -/

namespace Sys2Proof.Machine

/-! ## TAKE -/

/-- The custody states and custodians from which a port may take (R120). -/
def mayTake (c : Custody) (p : Port) : Bool :=
  match c.state with
  | .taking => false
  | .returning => false
  | .dr => decide (c.custodian ≠ some p)
  | _ => true

/-- The checks of TAKE (R120): the channel, the target and the mode. -/
def State.checkTake (s : State) (hd : Head) (f : TakeFields) : Verdict (Slot × Live × DrPort × TakeMode) :=
  match asDr hd.port with
  | none => .error (.notPermitted, .empty)
  | some d =>
    s.addressed hd.port f.channel fun i l =>
      match f.mode with
      | none => .error (.badField, .empty)
      | some m =>
        refuseIf (decide (s.reference.refState = .unset)) .timeUnset <|
        refuseIf (!mayTake l.custody hd.port) .state (.ok (i, l, d, m))

/-- The origin of a TAKE (R121). -/
def takeOrigin (st : CustodyState) : Origin := if st = .dr then .swap else .manual

/-- The reply to an accepted TAKE (R121). -/
def State.takeReply (s : State) (hd : Head) (i : Slot) : State :=
  onLive i s fun l =>
    match l.custody.takeover with
    | some t => s.answer hd 14 .ok (.taken t.target t.mode (s.frame t.cue.switchFrame) t.cue.number t.cue.state)
    | none => s

/-- TAKE (R120, R121). -/
def execTake (hd : Head) (body : Body TakeFields) (s : State) : Answer :=
  .next (takeRequest hd 14 body (fun f s =>
    s.conclude hd 14 (s.checkTake hd f) fun c =>
      (s.enterTaking c.1 c.2.2.1 (takeOrigin c.2.1.custody.state) c.2.2.2).takeReply hd c.1) s)

/-! ## CANCEL TAKE -/

/-- A TAKING channel with its takeover record, or the refusal STATE (R122, R139, R140). -/
def takingChannel {α : Type} (l : Live) (k : Takeover → Verdict α) : Verdict α :=
  match l.custody.state, l.custody.takeover with
  | .taking, some t => k t
  | _, _ => .error (.state, .empty)

/-- The checks of CANCEL TAKE (R122). -/
def State.checkCancelTake (s : State) (hd : Head) (ch : Nat) : Verdict (Slot × Live × Takeover) :=
  fromDr hd <| s.addressed hd.port ch fun i l => takingChannel l fun t => .ok (i, l, t)

/-- The state a takeover that ends without a switch returns to (R122, R146). -/
def stateAfter (c : Custody) (t : Takeover) : CustodyState := if c.output = .safe then .safe else t.prevState

/-- The acts of an accepted CANCEL TAKE (R122). -/
def State.cancelTakeover (s : State) (i : Slot) (l : Live) (t : Takeover) : State :=
  let s1 := s.setCustody i { l.custody with state := stateAfter l.custody t, takeover := none, switchDue := false }
  (s1.switchRecord i l.custody.output l.custody.output .cancel (some t.cue.number) s.reference.h
    .noTimeline).raiseCustodyChanged

/-- CANCEL TAKE (R122). -/
def execCancelTake (hd : Head) (body : Body Nat) (s : State) : Answer :=
  .next (takeRequest hd 15 body (fun ch s =>
    s.conclude hd 15 (s.checkCancelTake hd ch) fun c =>
      (s.cancelTakeover c.1 c.2.1 c.2.2).answer hd 15 .ok (.stateAfter (stateAfter c.2.1.custody c.2.2))) s)

/-! ## FETCH CUE -/

/-- The checks of FETCH CUE (R139): the channel, its takeover and the body of its cue. -/
def State.checkFetchCue (s : State) (hd : Head) (ch : Nat) : Verdict (Slot × Takeover × CueBody) :=
  fromDr hd <| s.addressed hd.port ch fun i l => takingChannel l fun t =>
    refuseIf (decide (drPort t.target ≠ hd.port)) .notTarget <|
    match t.cue.state, t.cue.body with
    | .computing, _ => .error (.busy, .cueWait t.cue.number (s.frame t.cue.switchFrame) t.attempt)
    | _, none => .error (.busy, .cueWait t.cue.number (s.frame t.cue.switchFrame) t.attempt)
    | _, some b => .ok (i, t, b)

/-- The stored fixed start of the event that identifies a cue; none where that event is not FIXED (R29, log
entry 40). -/
def State.identifyingStart (s : State) (i : Slot) (b : CueBody) : Option FrameField :=
  (s.live i).bind fun l =>
    (l.events.find? fun e => decide (b.identifying = some e.id)).bind fun e => e.fixedStart.map s.frame

/-- The reply to FETCH CUE (R134, R139). -/
def State.cueReport (s : State) (i : Slot) (t : Takeover) (b : CueBody) : CueReport where
  number := t.cue.number
  slot := i.val
  service := s.service i
  target := t.target
  origin := t.origin
  mode := t.mode
  attempt := t.attempt
  switchFrame := s.frame t.cue.switchFrame
  body := b
  state := t.cue.state
  updates := t.cue.updates
  takenAt := s.reportedH
  fixedStart := s.identifyingStart i b

/-- FETCH CUE (R139). -/
def execFetchCue (hd : Head) (body : Body Nat) (s : State) : Answer :=
  .next (takeRequest hd 16 body (fun ch s =>
    s.conclude hd 16 (s.checkFetchCue hd ch) fun c => s.answer hd 16 .ok (.cue (s.cueReport c.1 c.2.1 c.2.2))) s)

/-! ## CUE READY -/

/-- The checks of CUE READY (R140). -/
def State.checkCueReady (s : State) (hd : Head) (f : ReadyFields) : Verdict (Slot × Live × Takeover) :=
  fromDr hd <| s.addressed hd.port f.channel fun i l => takingChannel l fun t =>
    refuseIf (decide (drPort t.target ≠ hd.port)) .notTarget <|
    refuseWith (decide (f.number ≠ t.cue.number)) .staleCue (.currentCue t.cue.number) <|
    refuseIf (decide (t.cue.state = .computing)) .busy (.ok (i, l, t))

/-- CUE READY: the cue becomes READY (R140). -/
def execCueReady (hd : Head) (body : Body ReadyFields) (s : State) : Answer :=
  .next (takeRequest hd 17 body (fun f s =>
    s.conclude hd 17 (s.checkCueReady hd f) fun c =>
      let t := c.2.2
      (s.setLive c.1 (c.2.1.setTakeover (some { t with cue := { t.cue with state := .ready } }))).answer hd 17 .ok
        (.cueReady t.cue.number (s.frame t.cue.switchFrame) t.cue.updates)) s)

/-! ## ARM -/

/-- A channel's membership of the arm set after ARM, given whether it is in the given set (R115). -/
def armAfter (op : ArmOp) (given member : Bool) : Bool :=
  match op with
  | .replace => given
  | .add => member || given
  | .remove => member && !given
  | .toggle => member ^^ given

/-- The combination of the arm set with the given set, in one act (R115). -/
def State.combineArm (s : State) (op : ArmOp) (given : List Nat) : State :=
  forSlots (fun i s => onLive i s fun l =>
    s.setCustody i { l.custody with a := armAfter op (decide (i.val ∈ given)) l.custody.a }) s

/-- The channels whose A differs between two states, in slot order. -/
def armChanged (before after : State) : List Slot :=
  slots.filter fun i => decide ((before.live i).map (fun l => l.custody.a) ≠ (after.live i).map (fun l => l.custody.a))

/-- Channels evaluated once each, in the order given, with their outcomes (R115, R117). -/
def evaluateAll (s : State) : List Slot → State × List (Nat × Option EvalOutcome)
  | [] => (s, [])
  | i :: is =>
    let r := s.evaluate i
    let rs := evaluateAll r.1 is
    (rs.1, (i.val, r.2) :: rs.2)

/-- The given slots, each once, that no in-service channel holds (R115).  R115 gives them no order: they stand in the
order in which the request first gives them (DESIGN CHOICE, log entry 48). -/
def State.armDropped (s : State) (given : List Nat) : List Nat :=
  given.eraseDups.filter fun n => decide (n ∉ s.inService.map fun c => c.1.val)

/-- The acts of an accepted ARM (R115): the new state and the outcomes. -/
def State.armWith (s : State) (op : ArmOp) (given : List Nat) : State × List (Nat × Option EvalOutcome) :=
  let s1 := s.combineArm op given
  evaluateAll s1 (armChanged s s1)

/-- ARM (R115).  A slot number that no slot has is dropped with those not in service (log entry 18). -/
def execArm (hd : Head) (body : Body ArmFields) (s : State) : Answer :=
  .next (takeRequest hd 22 body (fun f s =>
    s.conclude hd 22 (fromDr hd <| match f.op with
      | none => .error (.badField, .empty)
      | some op => .ok op) fun op =>
      let r := s.armWith op f.slots
      r.1.answer hd 22 .ok (.armed r.1.armSet (s.armDropped f.slots) r.2)) s)

end Sys2Proof.Machine
end

