-- ==== Sys2Proof/Machine/FaultCommands.lean ====
section
/-! DEFINITION. The requests on status and faults: READ STATUS (R203), READ FAULTS (R199) and CLEAR FAULTS (R200). -/

namespace Sys2Proof.Machine

/-- Some channel's flag set or the house flag set is not empty (R203). -/
def State.anyFlag (s : State) : Bool := !s.houseFlags.isEmpty || s.inService.any fun c => !c.2.flags.isEmpty

/-- The reply to READ STATUS (R203). -/
def State.statusReport (s : State) (p : Port) : StatusReport where
  attention := s.attention p
  refState := s.reference.refState
  frame := s.reportedH
  freeSlots := if s.storeReady then some s.freeSlots else none
  freeBuffers := s.freeBuffers
  newest := s.asRun.newest
  captured := s.capture.map fun c => (c.cls, c.frozen)
  anyFlag := s.anyFlag
  inService := s.inService.length

/-- READ STATUS: the reply formed, and then the port's event reasons cleared in the same act (R203). -/
def execReadStatus (hd : Head) (body : Body Unit) (s : State) : Answer :=
  .next (takeRequest hd 26 body (fun _ s =>
    (s.answer hd 26 .ok (.status (s.statusReport hd.port))).raise hd.port fun _ => ⟨false, false, false, false⟩) s)

/-- The reply to READ FAULTS (R199).  The captured H, and a frame in its detail, get their day and timecode at the house
rate in force now, not at capture (DESIGN CHOICE, log entry 39). -/
def State.faultsReport (s : State) : FaultsReport :=
  let flagged := s.inService.filter fun c => !c.2.flags.isEmpty
  { capture := s.capture, captureFrame := s.capture.bind fun c => c.frame.map s.frame, freeze := s.house.freeze
    houseFlags := s.houseFlags, channels := flagged.map fun c => (c.1.val, s.service c.1, c.2.flags)
    count := flagged.length }

/-- READ FAULTS (R199). -/
def execReadFaults (hd : Head) (body : Body Unit) (s : State) : Answer :=
  .next (takeRequest hd 27 body (fun _ s => s.answer hd 27 .ok (.faults s.faultsReport)) s)

/-- A commit is in flight on the channel that a number names. -/
def State.inFlightAt (s : State) (n : Nat) : Bool := ((slotOf n).bind s.live).any Live.inFlight

/-- The checks of CLEAR FAULTS (R200): the capture setting. -/
def State.checkClearFaults (s : State) (hd : Head) (f : ClearFields) : Verdict Bool :=
  fromDr hd <|
  refuseIf (decide (32 < f.slots.length)) .badField <|
  match f.capture with
  | none => .error (.badField, .empty)
  | some c =>
    refuseIf (f.slots.any fun n => decide (31 < n)) .unknownChannel <|
    match f.slots.find? s.inFlightAt with
    | some n => .error (.busy, .busySlot n)
    | none => .ok c

/-- The named slots that are in service, each once, in slot order (R200; the order is a DESIGN CHOICE, log entry 46). -/
def State.clearedSlots (s : State) (ns : List Nat) : List Nat :=
  (s.inService.map fun c => c.1.val).filter fun n => decide (n ∈ ns)

/-- The acts of an accepted CLEAR FAULTS (R200). -/
def State.clear (s : State) (ns : List Nat) (capture : Bool) : State :=
  let s1 := forSlots (fun i s =>
    if i.val ∈ ns then onLive i s fun l => s.setLive i { l with flags := [] } else s) s
  if capture then { s1 with capture := none, houseFlags := [] } else s1

/-- CLEAR FAULTS (R200). -/
def execClearFaults (hd : Head) (body : Body ClearFields) (s : State) : Answer :=
  .next (takeRequest hd 28 body (fun f s =>
    s.conclude hd 28 (s.checkClearFaults hd f) fun c =>
      (s.clear f.slots c).answer hd 28 .ok (.cleared (s.clearedSlots f.slots) c)) s)

end Sys2Proof.Machine
end

