-- ==== Sys2Proof/Machine/HoldCommands.lean ====
section
/-! DEFINITION. The requests on holds: HOLD (R75, R76) and RELEASE HOLD (R77, R78). -/

namespace Sys2Proof.Machine

/-- The LIVE event that a channel's followed cursor is on (R75). -/
def Live.liveOnAir (l : Live) : Option EventCursor :=
  match l.followed with
  | some (.event c) => match c.content with
    | .live _ => some c
    | .clip _ _ => none
  | _ => none

/-- The checks of HOLD (R75): the channel and the cursor on the event to be held. -/
def State.checkHold (s : State) (hd : Head) (ch : Nat) : Verdict (Slot × Live × EventCursor) :=
  fromDr hd <| s.addressed hd.port ch fun i l =>
    refuseIf (decide (l.custody.custodian ≠ some hd.port)) .notCustodian <|
    refuseIf (decide (l.custody.state ≠ .dr)) .state <|
    refuseIf l.hold.isSome .held <|
    match l.liveOnAir with
    | none => .error (.notLive, .empty)
    | some c => .ok (i, l, c)

/-- HOLD (R75, R76). -/
def execHold (hd : Head) (body : Body Nat) (s : State) : Answer :=
  .next (takeRequest hd 18 body (fun ch s =>
    s.conclude hd 18 (s.checkHold hd ch) fun c =>
      let limit := s.house.holdLimit
      (s.setLive c.1 (c.2.1.startHold (s.params c.1) s.houseFrame c.2.2.id limit)).answer hd 18 .ok
        (.heldNow c.2.2.id c.2.2.offset limit (s.frame (s.reference.h + limit)))) s)

/-- The checks of RELEASE HOLD (R77): the channel, T_end, and whether its label was moved. -/
def State.checkRelease (s : State) (hd : Head) (f : ReleaseFields) : Verdict (Slot × Live × Nat × Bool) :=
  fromDr hd <| s.addressed hd.port f.channel fun i l =>
    refuseIf (decide (l.custody.custodian ≠ some hd.port)) .notCustodian <|
    refuseIf (decide (l.custody.state = .taking)) .state <|
    match toFrame s.house.rate f.tEnd with
    | none => .error (.badTime, .empty)
    | some c => .ok (i, l, c.1, c.2)

/-- T_end clamped into [H + 1, H + guard] (R78). -/
def clampEnd (h guard t : Nat) : Nat := min (max t (h + 1)) (h + guard)

/-- The event after an event of a channel's list, as the reply to RELEASE HOLD carries it: its resolution state
followed by its resolved start, whichever the state is (R78; DESIGN CHOICE, log entry 38). -/
def State.eventAfter (s : State) (l : Live) (id : Nat) : Option (ResState × Option FrameField) :=
  (((l.events.zip l.timeline).dropWhile fun c => decide (c.1.id ≠ id)).tail.head?).map fun c =>
    (c.2.state, c.2.start.map s.frame)

/-- RELEASE HOLD on a held channel: the release, and its reply (R78). -/
def State.releaseNow (s : State) (hd : Head) (i : Slot) (l : Live) (hr : HoldRec) (t : Nat) (moved : Bool) : State :=
  let tEnd := clampEnd s.reference.h (s.params i).guard t
  let l1 := l.release (s.params i) s.houseFrame tEnd
  (s.setLive i l1).answer hd 19 (okOr (moved || decide (tEnd ≠ t)))
    (.released hr.eventId (s.frame tEnd) (s.eventAfter l1 hr.eventId))

/-- RELEASE HOLD (R77, R78).  On a channel that is not held it is answered OK, as R77 says, for a T_end whose label was
moved too (DESIGN CHOICE against R16's ADJUSTED, log entry 41). -/
def execReleaseHold (hd : Head) (body : Body ReleaseFields) (s : State) : Answer :=
  .next (takeRequest hd 19 body (fun f s =>
    s.conclude hd 19 (s.checkRelease hd f) fun c =>
      match c.2.1.hold with
      | none => s.answer hd 19 .ok .notHeld
      | some hr => s.releaseNow hd c.1 c.2.1 hr c.2.2.1 c.2.2.2) s)

end Sys2Proof.Machine
end

