-- ==== Sys2Proof/Machine/HouseCommands.lean ====
section
/-! DEFINITION. The requests on the house: SET TIME (R17) and CONFIGURE HOUSE (R182, R183). -/

namespace Sys2Proof.Machine

/-- The checks of SET TIME (R17): the frame and whether it was adjusted. -/
def State.checkSetTime (s : State) (hd : Head) (t : SchedTime) : Verdict (Nat × Bool) :=
  fromDr hd <|
  refuseIf s.reference.pendingSet.isSome .busy <|
  match toFrame s.house.rate t with
  | none => .error (.badTime, .empty)
  | some c => refuseIf s.channelActive .channelActive (.ok c)

/-- SET TIME: the time set becomes pending, and is answered at the next frame arrival (R17). -/
def execSetTime (hd : Head) (body : Body SchedTime) (s : State) : Answer :=
  .next (takeRequest hd 3 body (fun t s =>
    s.conclude hd 3 (s.checkSetTime hd t) fun c =>
      ({ s with reference := { s.reference with pendingSet := some ⟨c.1, hd.port, hd.tag, c.2⟩ } }).defer hd 3) s)

/-- The house parameters that a CONFIGURE HOUSE leaves (R183). -/
def houseResult (f : HouseFields) (p : HouseParams) : HouseParams where
  rate := keepEnum p.rate f.rate
  linkTimeout := keepOr p.linkTimeout f.linkTimeout
  autoTimeout := keepOr p.autoTimeout f.autoTimeout
  leaseTimeout := keepOr p.leaseTimeout f.leaseTimeout
  holdLimit := keepOr p.holdLimit f.holdLimit
  freeze := keepEnum p.freeze f.freeze

/-- A CONFIGURE HOUSE holds a value outside its range or enumeration, or a reserved bit set (R182, R215). -/
def houseMalformed (f : HouseFields) (p : HouseParams) : Bool :=
  f.reserved || !keepKnown f.rate || !keepKnown f.freeze || !houseInRange (houseResult f p)

/-- The checks of CONFIGURE HOUSE (R182): the parameters it leaves. -/
def State.checkConfigureHouse (s : State) (hd : Head) (f : HouseFields) : Verdict HouseParams :=
  fromDr hd <|
  refuseIf (houseMalformed f s.house) .badField <|
  refuseIf (!s.inService.isEmpty) .channelActive <|
  refuseIf (s.reference.pendingSet.isSome && decide ((houseResult f s.house).rate ≠ s.house.rate)) .busy <|
  .ok (houseResult f s.house)

/-- The Reference Counter at a change of house rate: UNSET with H = 0 (R9). -/
def Reference.rateChanged (r : Reference) : Reference := { r with refState := .unset, h := 0 }

/-- An accepted CONFIGURE HOUSE: the parameters in one act, then what a changed rate and a changed freeze option
do (R9, R183, R198). -/
def State.setHouse (s : State) (p : HouseParams) : State :=
  { s with
    house := p
    reference := if p.rate = s.house.rate then s.reference else s.reference.rateChanged
    capture := if p.freeze = s.house.freeze then s.capture else s.capture.map fun c => { c with frozen := p.freeze } }

/-- CONFIGURE HOUSE (R182, R183). -/
def execConfigureHouse (hd : Head) (body : Body HouseFields) (s : State) : Answer :=
  .next (takeRequest hd 4 body (fun f s =>
    s.conclude hd 4 (s.checkConfigureHouse hd f) fun p =>
      let s1 := s.setHouse p
      s1.answer hd 4 .ok (.house s1.house s1.reference.refState)) s)

end Sys2Proof.Machine
end

