-- ==== Sys2Proof/Machine/LogCommands.lean ====
section
/-! DEFINITION. The requests on the as-run log: READ AS-RUN (R174 to R176) and MARK (R177). -/

namespace Sys2Proof.Machine

/-- What R162 puts in every reply to READ AS-RUN: all that the reply to one not carried out holds.  The fields stand in
R175's order (DESIGN CHOICE, log entry 44). -/
def AsRun.refusal (r : AsRun) : ReplyBody := .asRunRefused r.newest r.oldest r.full r.dropped

/-- The first condition of R174 that a channel set meets, as its reply status. -/
def setRefusal (p : Port) : SetField → Option Status
  | .all => none
  | .bad => some .badField
  | .members ms =>
    if !within 1 32 ms.length then some .badField
    else if p = .L ∧ 0 ∈ ms then some .badField
    else if p ≠ .L ∧ ms.any (fun n => decide (31 < n)) then some .unknownChannel
    else none

/-- The first condition of R174 that a READ AS-RUN meets, as its reply status. -/
def asRunRefusal (p : Port) (f : AsRunFields) : Option Status :=
  if f.count = 0 then some .badField else setRefusal p f.set

/-- The checks of READ AS-RUN (R174), a refusal carrying the state of the log (R162). -/
def AsRun.checkRead (r : AsRun) (p : Port) (f : AsRunFields) : Verdict Unit :=
  match asRunRefusal p f with
  | some st => .error (st, r.refusal)
  | none => .ok ()

/-- The unread entries overwritten before they were read (R175). -/
def AsRun.overwritten (r : AsRun) (mark : Nat) : Nat :=
  match r.oldest with
  | some o => o - (mark + 1)
  | none => 0

/-- The examination of a READ AS-RUN: the matching entries, and the last number examined (R175). -/
def State.examined (s : State) (p : Port) (f : AsRunFields) : List LogEntry × Option Nat :=
  examine (asRunMatches p f.set) (min f.count Config.readLimit) none
    (s.asRun.ring.filter fun e => decide ((s.port p).mark < e.seq))

/-- The read mark after a READ AS-RUN: moved in follow mode by a read that examined an entry (R176). -/
def markAfter (u : PortUnit) (last : Option Nat) : Nat := if u.follow then last.getD u.mark else u.mark

/-- The reply to READ AS-RUN (R175). -/
def State.asRunReport (s : State) (p : Port) (f : AsRunFields) : AsRunReport :=
  let x := s.examined p f
  { entries := x.1.map reportEntry, returned := x.1.length, overwritten := s.asRun.overwritten (s.port p).mark
    lastExamined := x.2, mark := markAfter (s.port p) x.2, follow := (s.port p).follow, newest := s.asRun.newest
    oldest := s.asRun.oldest, full := s.asRun.full, dropped := s.asRun.dropped
    more := match x.2 with
      | some n => decide (n < s.asRun.newest)
      | none => false }

/-- READ AS-RUN (R174 to R176).  Its answers by the Port Unit, PORT_BUSY and BAD_FIELD, are replies to it as well
(R162; DEDUCED, log entry 44). -/
def execReadAsRun (hd : Head) (body : Body AsRunFields) (s : State) : Answer :=
  .next (takeRequestWith (fun s => s.asRun.refusal) hd 24 body (fun f s =>
    s.conclude hd 24 (s.asRun.checkRead hd.port f) fun _ =>
      let s1 := s.setPort hd.port { s.port hd.port with
        mark := markAfter (s.port hd.port) (s.examined hd.port f).2 }
      s1.answer hd 24 (okOr (decide (Config.readLimit < f.count))) (.asRun (s.asRunReport hd.port f))) s)

/-- MARK: the value clamped to the newest sequence number, and the follow flag (R177). -/
def execMark (hd : Head) (body : Body MarkFields) (s : State) : Answer :=
  .next (takeRequest hd 25 body (fun f s =>
    s.conclude hd 25 (match f.follow with
      | none => .error (.badField, .empty)
      | some b => .ok b) fun b =>
      let m := min f.value s.asRun.newest
      (s.setPort hd.port { s.port hd.port with mark := m, follow := b }).answer hd 25
        (okOr (decide (s.asRun.newest < f.value))) (.marked m b s.asRun.newest s.asRun.oldest)) s)

end Sys2Proof.Machine
end

