-- ==== Sys2Proof/Machine/PortCommands.lean ====
section
/-! DEFINITION. The requests that the Port Unit itself answers: an unknown code (R207), PRESENCE (R210) and PORT
RESET (R212). -/

namespace Sys2Proof.Machine

/-- UNKNOWN_REQUEST: a request code that names no request (R207). -/
def execUnknownRequest (hd : Head) (code : Nat) (s : State) : Answer :=
  .next (takeRequest hd code (.fields ()) (fun _ s => s.answer hd code .unknownRequest .empty) s)

/-- One entry of an accepted Port L PRESENCE, with the counts of entries applied and ignored (R109). -/
def State.presenceEntry (r : State × Nat × Nat) (e : PresenceEntry) : State × Nat × Nat :=
  match r.1.slotOfService e.service with
  | some i =>
    (onLive i r.1 fun l =>
      r.1.setCustody i (l.custody.presenceEntry r.1.houseFrame l.sourceRev (e.healthy.getD false) e.mainRev),
      r.2.1 + 1, r.2.2)
  | none => (r.1, r.2.1, r.2.2 + 1)

/-- A Port L PRESENCE body is accepted: at most 32 entries, each healthy flag 0 or 1 (R210). -/
def presenceAccepted : Body (List PresenceEntry) → Option (List PresenceEntry)
  | .misfit => none
  | .fields es => if decide (es.length ≤ 32) && es.all (fun e => e.healthy.isSome) then some es else none

/-- The reply OK to a PRESENCE (R210). -/
def State.presenceReply (s : State) (hd : Head) (counts : Option (Nat × Nat)) : State :=
  s.answer hd 1 .ok (.presence counts (s.timeoutOf hd.port) s.reference.refState s.reportedH)

/-- A PRESENCE from Port L: a change to PRESENT and the entries reach the Custody Controller as one event, and
each channel is evaluated once after it (R109, R209). -/
def State.linkPresence (s : State) (hd : Head) (body : Body (List PresenceEntry)) : State :=
  if (s.port .L).inProgress.isSome then (s.arrive .L).answer hd 1 .portBusy .empty
  else match presenceAccepted body with
    | none => (s.arrive .L).answer hd 1 .badField .empty
    | some es =>
      let r := es.foldl State.presenceEntry (s.restartPresence .L, 0, 0)
      (forSlots State.linkConditions r.1).presenceReply hd (some r.2)

/-- PRESENCE (R210).  The body of one from Port A or B is not divided. -/
def execPresence (hd : Head) (body : Body (List PresenceEntry)) (s : State) : Answer :=
  .next (match hd.port with
    | .L => if hears (s.port .L).receive then s.linkPresence hd body else s
    | _ => takeRequest hd 1 (.fields ()) (fun _ s => s.presenceReply hd none) s)

/-- PORT RESET: taken while another request is in progress too; presence first, then the reset, then the reply
(R212). -/
def execPortReset (hd : Head) (body : Body Unit) (s : State) : Answer :=
  .next (if hears (s.port hd.port).receive then
      let s1 := s.arrive hd.port
      match body with
      | .misfit => s1.answer hd 2 .badField .empty
      | .fields _ =>
        let s2 := s1.resetPortOf hd.port .hunting
        s2.answer hd 2 .ok (.attentionSet (s2.attention hd.port))
    else s)

end Sys2Proof.Machine
end

