-- ==== Sys2Proof/Machine/ReadCommands.lean ====
section
/-! DEFINITION. The requests that read lists, cursors and custody: READ EVENTS (R35, R36), READ NEXT EVENTS (R37),
READ CURSOR (R58, R59) and MATCH (R129). -/

namespace Sys2Proof.Machine

/-! ## READ EVENTS and READ NEXT EVENTS -/

/-- The list with its resolved fields and indexes, the head's 0 (R36). -/
def Live.indexed (l : Live) : List (Nat × EventRec × Resolved) :=
  (List.range l.events.length).zip (l.events.zip l.timeline)

/-- One event as READ EVENTS reports it (R36). -/
def State.eventReport (s : State) (c : Nat × EventRec × Resolved) : EventReport where
  index := c.1
  record := c.2.1
  fixedStart := c.2.1.fixedStart.map s.frame
  holdEnd := c.2.1.holdEnd.map s.frame
  resolved := c.2.2
  resolvedStart := c.2.2.start.map s.frame

/-- A count above 16 is clamped (R35, R37, R174). -/
def clampCount (n : Nat) : Nat := min n Config.readLimit

/-- The index at which the events to be returned start: that of the named event, or of the event after it. -/
def Live.indexOf (l : Live) (id : Nat) : Nat := l.events.findIdx fun e => decide (e.id = id)

/-- The events of a read, from an index on (R35, R37). -/
def Live.window (l : Live) (first count : Nat) : List (Nat × EventRec × Resolved) := (l.indexed.drop first).take count

/-- The read position after a read: the last event returned, or what the read leaves when none was (R35, R37). -/
def positionAfter (i : Slot) (w : List (Nat × EventRec × Resolved)) (otherwise : Option ReadPos) : Option ReadPos :=
  match w.getLast? with
  | some c => some ⟨i, some c.2.1.id⟩
  | none => otherwise

/-- A list read from an index: the read position set and the reply sent (R35, R36, R37). -/
def State.readList (s : State) (hd : Head) (code : Nat) (i : Slot) (l : Live) (first count : Nat)
    (otherwise : Option ReadPos) : State :=
  let w := l.window first (clampCount count)
  let s1 := s.setPort hd.port { s.port hd.port with readPos := positionAfter i w otherwise }
  s1.answer hd code (okOr (decide (Config.readLimit < count))) (.events
    { slot := i.val, service := s.service i, length := l.events.length, quota := (s.params i).quota
      mirrorRev := l.mirrorRev, sourceRev := l.sourceRev, stale := l.stale, returned := w.length
      more := decide (first + w.length < l.events.length) } (w.map s.eventReport))

/-- The checks of READ EVENTS (R35): the channel and the index of the starting event.  A refusal carries no field of the
mirror state, though the text before R31 speaks of every reply (DESIGN CHOICE, log entry 51). -/
def State.checkReadEvents (s : State) (hd : Head) (f : ReadFields) : Verdict (Slot × Live × Nat) :=
  s.whenReady <|
  s.addressed hd.port f.channel fun i l =>
    refuseIf (decide (f.count = 0)) .badField <|
    refuseIf l.inFlight .busy <|
    match f.start with
    | none => .ok (i, l, 0)
    | some id => refuseIf (!hasId id l.events) .notFound (.ok (i, l, l.indexOf id))

/-- READ EVENTS (R35). -/
def execReadEvents (hd : Head) (body : Body ReadFields) (s : State) : Answer :=
  .next (takeRequest hd 11 body (fun f s =>
    s.conclude hd 11 (s.checkReadEvents hd f) fun c =>
      s.readList hd 11 c.1 c.2.1 c.2.2 f.count (some ⟨c.1, none⟩)) s)

/-- The checks of READ NEXT EVENTS (R37): the position, the channel, and the index after the position.  A refusal
carries no field of the mirror state (DESIGN CHOICE, log entry 51). -/
def State.checkReadNext (s : State) (hd : Head) (count : Nat) : Verdict (ReadPos × Live × Nat) :=
  s.whenReady <|
  refuseIf (decide (count = 0)) .badField <|
  match (s.port hd.port).readPos with
  | none => .error (.positionLost, .empty)
  | some r =>
    match s.live r.slot with
    | none => .error (.positionLost, .empty)
    | some l =>
      refuseIf l.inFlight .busy <|
      match r.event with
      | none => .ok (r, l, 0)
      | some id => refuseIf (!hasId id l.events) .positionLost (.ok (r, l, l.indexOf id + 1))

/-- READ NEXT EVENTS: a read that returns no event leaves the position (R37). -/
def execReadNextEvents (hd : Head) (body : Body Nat) (s : State) : Answer :=
  .next (takeRequest hd 12 body (fun count s =>
    s.conclude hd 12 (s.checkReadNext hd count) fun c =>
      s.readList hd 12 c.1.slot c.2.1 c.2.2 count (some c.1)) s)

/-! ## READ CURSOR -/

/-- The checks of READ CURSOR (R58): the channel, the frame X, and whether it was adjusted.  A selector outside
its enumeration is BAD_FIELD (log entry 16). -/
def State.checkReadCursor (s : State) (hd : Head) (f : CursorFields) : Verdict (Slot × Live × Nat × Bool) :=
  s.whenReady <|
  s.addressed hd.port f.channel fun i l =>
    match f.frame with
    | .bad => .error (.badField, .empty)
    | .now =>
      match s.houseFrame with
      | none => .error (.timeUnset, .empty)
      | some h => .ok (i, l, h, false)
    | .time t =>
      match toFrame s.house.rate t with
      | none => .error (.badTime, .empty)
      | some c => .ok (i, l, c.1, c.2)

/-- The reply to READ CURSOR at frame X (R59). -/
def State.cursorReport (s : State) (i : Slot) (l : Live) (x : Nat) : CursorReport :=
  let ps := drawProtected l.events l.timeline (l.hold.map (·.eventId)) (s.params i).guard s.houseFrame
  { slot := i.val, service := s.service i, frame := s.frame x, timelineRev := l.timelineRev, inFlight := l.inFlight
    heldEvent := l.hold.map (·.eventId), cursor := l.cursor x, protectedCount := ps.length
    protectedIds := (ps.take Config.protectedShown).map (·.contents.id)
    protectedMore := decide (Config.protectedShown < ps.length) }

/-- READ CURSOR (R58, R59). -/
def execReadCursor (hd : Head) (body : Body CursorFields) (s : State) : Answer :=
  .next (takeRequest hd 13 body (fun f s =>
    s.conclude hd 13 (s.checkReadCursor hd f) fun c =>
      s.answer hd 13 (okOr c.2.2.2) (.cursor (s.cursorReport c.1 c.2.1 c.2.2.1))) s)

/-! ## MATCH -/

/-- A field of a pattern equals a channel's value, or is "any" (R129). -/
def patHolds {α : Type} [DecidableEq α] (v : α) : Pat α → Bool
  | .any => true
  | .is w => decide (v = w)
  | .bad => false

/-- A field of a pattern lies outside the table of R129. -/
def patBad {α : Type} : Pat α → Bool
  | .bad => true
  | _ => false

/-- A pattern holds a value outside the table of R129. -/
def patternMalformed (f : MatchFields) : Bool :=
  patBad f.state || patBad f.custodian || patBad f.output || patBad f.m || patBad f.s || patBad f.l || patBad f.a ||
  patBad f.held || patBad f.inFlight || patBad f.holder

/-- A channel matches a pattern (R129). -/
def Live.matchesPattern (f : MatchFields) (l : Live) : Bool :=
  patHolds l.custody.state f.state && patHolds l.custody.custodian f.custodian && patHolds l.custody.output f.output &&
  patHolds l.custody.m f.m && patHolds l.custody.s f.s && patHolds l.custody.l f.l && patHolds l.custody.a f.a &&
  patHolds l.hold.isSome f.held && patHolds l.inFlight f.inFlight && patHolds l.holder f.holder

/-- MATCH (R129). -/
def execMatchChannels (hd : Head) (body : Body MatchFields) (s : State) : Answer :=
  .next (takeRequest hd 23 body (fun f s =>
    s.conclude hd 23 (refuseIf (patternMalformed f) .badField (.ok ())) fun _ =>
      let found := s.inService.filter fun c => c.2.matchesPattern f
      s.answer hd 23 .ok (.matched found.length (found.map fun c => (c.1.val, s.service c.1)))) s)

end Sys2Proof.Machine
end

