-- ==== Sys2Proof/Machine/ReturnCommands.lean ====
section
/-! DEFINITION. The requests of a handback: RETURN (R150 to R154) and CANCEL RETURN (R156). -/

namespace Sys2Proof.Machine

/-- A return's switch frame lies in its window: H + lead ≤ T < H + guard (R151). -/
def returnWindow (h lead guard t : Nat) : Bool := decide (h + lead ≤ t) && decide (t < h + guard)

/-- The cursor at T agrees with a RETURN (R153): the agreed event cursor, or the mismatch. -/
def returnAgrees (c : Cursor) (eventId offset : Nat) : Option EventCursor :=
  match c with
  | .event e => if decide (e.id = eventId) && decide (e.offset = offset) then some e else none
  | _ => none

/-- Checks 4 to 6 of R151, with T converted: the return's frame, whether it was moved, and the agreed cursor. -/
def State.checkReturnFrame (s : State) (i : Slot) (l : Live) (f : ReturnFields) :
    Verdict (Slot × Live × Nat × Bool × EventCursor) :=
  match toFrame s.house.rate f.frame with
  | none => .error (.badTime, .empty)
  | some c =>
    refuseIf (!returnWindow s.reference.h (s.params i).cueLead (s.params i).guard c.1) .badTime <|
    refuseWith (decide (s.portL.mark < l.latestSeq)) .asRunPending
      (.asRunPending s.portL.mark l.latestSeq s.asRun.newest) <|
    match returnAgrees (l.cursor c.1) f.eventId f.offset with
    | none => .error (.cursorMismatch, .cursorMismatch (l.cursor c.1) (s.frame c.1))
    | some e => .ok (i, l, c.1, c.2, e)

/-- The checks of RETURN (R150, R151). -/
def State.checkReturn (s : State) (hd : Head) (f : ReturnFields) : Verdict (Slot × Live × Nat × Bool × EventCursor) :=
  refuseIf (decide (hd.port ≠ .L)) .notPermitted <|
  s.addressed hd.port f.channel fun i l =>
    refuseIf (!within 1 4294967295 f.eventId || !within 0 4294967295 f.offset) .badField <|
    refuseIf (decide (l.custody.state ≠ .dr)) .state <|
    refuseIf l.hold.isSome .held <|
    refuseIf l.inFlight .busy <|
    s.checkReturnFrame i l f

/-- The return record written at acceptance (R149). -/
def State.returnRecord (s : State) (l : Live) (t : Nat) (f : ReturnFields) : ReturnRec where
  frame := t
  eventId := f.eventId
  offset := f.offset
  acceptedAt := s.reference.h
  markAtAcceptance := s.portL.mark
  latestAtAcceptance := l.latestSeq
  output := l.custody.output

/-- RETURN_PENDING raised in the custodian's attention set (R154). -/
def State.raiseReturnAt (s : State) : Option Port → State
  | some p => s.raiseReturnPending p
  | none => s

/-- The acts of an accepted RETURN (R154). -/
def State.acceptReturn (s : State) (i : Slot) (l : Live) (t : Nat) (f : ReturnFields) : State :=
  ((s.setCustody i { l.custody with
    state := .returning, ret := some (s.returnRecord l t f), switchDue := false }).raiseReturnAt
      l.custody.custodian).raiseCustodyChanged

/-- RETURN (R150 to R154). -/
def execHandback (hd : Head) (body : Body ReturnFields) (s : State) : Answer :=
  .next (takeRequest hd 20 body (fun f s =>
    s.conclude hd 20 (s.checkReturn hd f) fun c =>
      let l := c.2.1
      let t := c.2.2.1
      (s.acceptReturn c.1 l t f).answer hd 20 (okOr c.2.2.2.1)
        (.returning (s.frame t) f.eventId f.offset c.2.2.2.2.mediaPosition l.custody.custodian
          (l.custody.custodian.any s.present) s.portL.mark l.latestSeq)) s)

/-- The checks of CANCEL RETURN (R156): the channel, and the switch frame that is discarded. -/
def State.checkCancelReturn (s : State) (hd : Head) (ch : Nat) : Verdict (Slot × Nat) :=
  fromDr hd <| s.addressed hd.port ch fun i l =>
    refuseIf (decide (l.custody.custodian ≠ some hd.port)) .notCustodian <|
    match l.custody.state, l.custody.ret with
    | .returning, some r => .ok (i, r.frame)
    | _, _ => .error (.state, .empty)

/-- CANCEL RETURN (R156). -/
def execCancelReturn (hd : Head) (body : Body Nat) (s : State) : Answer :=
  .next (takeRequest hd 21 body (fun ch s =>
    s.conclude hd 21 (s.checkCancelReturn hd ch) fun c =>
      let s1 := s.withdrawReturn c.1 hd.port
      s1.answer hd 21 .ok (.returnCancelled (s.frame c.2) (s1.custodyState c.1))) s)

end Sys2Proof.Machine
end

