-- ==== Sys2Proof/Machine/Dispatch.lean ====
section
/-! DEFINITION. The meaning of each command. -/

namespace Sys2Proof.Machine

def exec (i : Instr) (s : State) : Host.Outcome State Fault Refusal :=
  match i with
  | .deviceReset pins => Sys2Proof.Machine.execDeviceReset pins s
  | .storeInitialisationEnd => Sys2Proof.Machine.execStoreInitialisationEnd s
  | .housePulse moment custodyFirst => Sys2Proof.Machine.execHousePulse moment custodyFirst s
  | .insertedArrival moment custodyFirst => Sys2Proof.Machine.execInsertedArrival moment custodyFirst s
  | .holdLimit slot => Sys2Proof.Machine.execHoldLimit slot s
  | .leaseExpired slot => Sys2Proof.Machine.execLeaseExpired slot s
  | .presenceExpiry p => Sys2Proof.Machine.execPresenceExpiry p s
  | .commitCompletion completion => Sys2Proof.Machine.execCommitCompletion completion s
  | .switchFrameReached slot => Sys2Proof.Machine.execSwitchFrameReached slot s
  | .returnSwitchFrame slot => Sys2Proof.Machine.execReturnSwitchFrame slot s
  | .badFrame p cause => Sys2Proof.Machine.execBadFrame p cause s
  | .lineBreak p => Sys2Proof.Machine.execLineBreak p s
  | .unknownRequest hd code => Sys2Proof.Machine.execUnknownRequest hd code s
  | .presence hd body => Sys2Proof.Machine.execPresence hd body s
  | .portReset hd body => Sys2Proof.Machine.execPortReset hd body s
  | .setTime hd body => Sys2Proof.Machine.execSetTime hd body s
  | .configureHouse hd body => Sys2Proof.Machine.execConfigureHouse hd body s
  | .configureChannel hd body => Sys2Proof.Machine.execConfigureChannel hd body s
  | .readChannel hd body => Sys2Proof.Machine.execReadChannel hd body s
  | .openBatch hd body => Sys2Proof.Machine.execOpenBatch hd body s
  | .addEntries hd body => Sys2Proof.Machine.execAddEntries hd body s
  | .closeBatch hd body => Sys2Proof.Machine.execCloseBatch hd body s
  | .abortBatch hd body => Sys2Proof.Machine.execAbortBatch hd body s
  | .readEvents hd body => Sys2Proof.Machine.execReadEvents hd body s
  | .readNextEvents hd body => Sys2Proof.Machine.execReadNextEvents hd body s
  | .readCursor hd body => Sys2Proof.Machine.execReadCursor hd body s
  | .take hd body => Sys2Proof.Machine.execTake hd body s
  | .cancelTake hd body => Sys2Proof.Machine.execCancelTake hd body s
  | .fetchCue hd body => Sys2Proof.Machine.execFetchCue hd body s
  | .cueReady hd body => Sys2Proof.Machine.execCueReady hd body s
  | .hold hd body => Sys2Proof.Machine.execHold hd body s
  | .releaseHold hd body => Sys2Proof.Machine.execReleaseHold hd body s
  | .handback hd body => Sys2Proof.Machine.execHandback hd body s
  | .cancelReturn hd body => Sys2Proof.Machine.execCancelReturn hd body s
  | .arm hd body => Sys2Proof.Machine.execArm hd body s
  | .matchChannels hd body => Sys2Proof.Machine.execMatchChannels hd body s
  | .readAsRun hd body => Sys2Proof.Machine.execReadAsRun hd body s
  | .mark hd body => Sys2Proof.Machine.execMark hd body s
  | .readStatus hd body => Sys2Proof.Machine.execReadStatus hd body s
  | .readFaults hd body => Sys2Proof.Machine.execReadFaults hd body s
  | .clearFaults hd body => Sys2Proof.Machine.execClearFaults hd body s
  | .lineIdle p => Sys2Proof.Machine.execLineIdle p s
  | .lineReturnsToMark p => Sys2Proof.Machine.execLineReturnsToMark p s

end Sys2Proof.Machine
end

