-- ==== Sys2Proof/Safety.lean ====
section
/-! DEFINITION. The terms in which claims about the part are made: which commands are requests and of which sort,
when a port is ready to act on one, and the laws that every step keeps. -/

namespace Sys2Proof.Machine

/-! ## Sorts of request -/

/-- The head and request code of a request; none for an event (roles table, R207). -/
def requestOf : Instr → Option (Head × Nat)
  | .deviceReset _ => none
  | .storeInitialisationEnd => none
  | .housePulse _ _ => none
  | .insertedArrival _ _ => none
  | .holdLimit _ => none
  | .leaseExpired _ => none
  | .presenceExpiry _ => none
  | .commitCompletion _ => none
  | .switchFrameReached _ => none
  | .returnSwitchFrame _ => none
  | .badFrame _ _ => none
  | .lineBreak _ => none
  | .unknownRequest hd code => some (hd, code)
  | .presence hd _ => some (hd, 1)
  | .portReset hd _ => some (hd, 2)
  | .setTime hd _ => some (hd, 3)
  | .configureHouse hd _ => some (hd, 4)
  | .configureChannel hd _ => some (hd, 5)
  | .readChannel hd _ => some (hd, 6)
  | .openBatch hd _ => some (hd, 7)
  | .addEntries hd _ => some (hd, 8)
  | .closeBatch hd _ => some (hd, 9)
  | .abortBatch hd _ => some (hd, 10)
  | .readEvents hd _ => some (hd, 11)
  | .readNextEvents hd _ => some (hd, 12)
  | .readCursor hd _ => some (hd, 13)
  | .take hd _ => some (hd, 14)
  | .cancelTake hd _ => some (hd, 15)
  | .fetchCue hd _ => some (hd, 16)
  | .cueReady hd _ => some (hd, 17)
  | .hold hd _ => some (hd, 18)
  | .releaseHold hd _ => some (hd, 19)
  | .handback hd _ => some (hd, 20)
  | .cancelReturn hd _ => some (hd, 21)
  | .arm hd _ => some (hd, 22)
  | .matchChannels hd _ => some (hd, 23)
  | .readAsRun hd _ => some (hd, 24)
  | .mark hd _ => some (hd, 25)
  | .readStatus hd _ => some (hd, 26)
  | .readFaults hd _ => some (hd, 27)
  | .clearFaults hd _ => some (hd, 28)
  | .lineIdle _ => none
  | .lineReturnsToMark _ => none

/-- A body that its request's layout does not divide (R207). -/
def isMisfit {α : Type} : Body α → Bool
  | .misfit => true
  | .fields _ => false

/-- A request whose body its layout does not divide.  The body of a PRESENCE from Ports A and B is not divided
(R210), and an unknown code has no layout. -/
def bodyMisfits : Instr → Bool
  | .presence hd b => decide (hd.port = .L) && isMisfit b
  | .portReset _ b => isMisfit b
  | .setTime _ b => isMisfit b
  | .configureHouse _ b => isMisfit b
  | .configureChannel _ b => isMisfit b
  | .readChannel _ b => isMisfit b
  | .openBatch _ b => isMisfit b
  | .addEntries _ b => isMisfit b
  | .closeBatch _ b => isMisfit b
  | .abortBatch _ b => isMisfit b
  | .readEvents _ b => isMisfit b
  | .readNextEvents _ b => isMisfit b
  | .readCursor _ b => isMisfit b
  | .take _ b => isMisfit b
  | .cancelTake _ b => isMisfit b
  | .fetchCue _ b => isMisfit b
  | .cueReady _ b => isMisfit b
  | .hold _ b => isMisfit b
  | .releaseHold _ b => isMisfit b
  | .handback _ b => isMisfit b
  | .cancelReturn _ b => isMisfit b
  | .arm _ b => isMisfit b
  | .matchChannels _ b => isMisfit b
  | .readAsRun _ b => isMisfit b
  | .mark _ b => isMisfit b
  | .readStatus _ b => isMisfit b
  | .readFaults _ b => isMisfit b
  | .clearFaults _ b => isMisfit b
  | .unknownRequest _ _ => false
  | .deviceReset _ => false
  | .storeInitialisationEnd => false
  | .housePulse _ _ => false
  | .insertedArrival _ _ => false
  | .holdLimit _ => false
  | .leaseExpired _ => false
  | .presenceExpiry _ => false
  | .commitCompletion _ => false
  | .switchFrameReached _ => false
  | .returnSwitchFrame _ => false
  | .badFrame _ _ => false
  | .lineBreak _ => false
  | .lineIdle _ => false
  | .lineReturnsToMark _ => false

/-- The requests, by code, that only Ports A and B may send (roles table, R207). -/
def drOnlyCodes : List Nat := [3, 4, 5, 14, 15, 16, 17, 18, 19, 21, 22, 28]

/-- The requests, by code, that are answered BUSY while the store is initialising (R21). -/
def listCodes : List Nat := [5, 7, 8, 9, 10, 11, 12, 13]

/-! ## Ports -/

/-- The port's receive line can bring a frame, and no request of it is in progress: what it sends is acted on. -/
def Open (s : State) (p : Port) : Prop := hears (s.port p).receive = true ∧ (s.port p).inProgress = none

/-- The port is open and PRESENT, so that a request brings no change of presence with it (R208, R209). -/
def Ready (s : State) (p : Port) : Prop := Open s p ∧ s.present p = true

/-- The channel of a slot is in service with the state `l`, and its entry in the map and its slot number both name
it: a request of port `p` that holds `ch` in its channel field names it (R185, R207). -/
def Names (s : State) (p : Port) (ch : Nat) (i : Slot) (l : Live) : Prop := s.address p ch = .ok (i, l)

/-! ## Frames -/

/-- `t` differs from `s` in the unit of port `p` at most. -/
def OnlyPort (p : Port) (s t : State) : Prop := t = s.setPort p (t.port p)

/-- `t` differs from `s` in the unit of port `p` and the channel of slot `i` at most. -/
def OnlyPortAndChannel (p : Port) (i : Slot) (s t : State) : Prop := t = (s.setChan i (t.chan i)).setPort p (t.port p)

/-- The reference, the house parameters, the store's readiness and the queue are as they were. -/
def SystemKept (s t : State) : Prop :=
  t.reference = s.reference ∧ t.house = s.house ∧ t.storeReady = s.storeReady ∧ t.pending = s.pending

/-- Every channel but that of slot `i` is as it was, parameters included. -/
def OthersKept (i : Slot) (s t : State) : Prop := ∀ j, j ≠ i → t.chan j = s.chan j

/-- Every port is as it was, but for its event reasons. -/
def PortsKept (s t : State) : Prop := ∀ q, t.port q = { s.port q with reasons := (t.port q).reasons }

/-- The request of head `hd` and code `code` was answered with `st` and `body` at the end of its act: its port hunts,
its presence timer runs from the timeout, one reply more has been sent, and every port is otherwise as it was but for
its event reasons (R204, R206, R208, R215). -/
def Replied (s t : State) (hd : Head) (code : Nat) (st : Status) (body : ReplyBody) : Prop :=
  t.port hd.port = { s.port hd.port with
    receive := .hunting
    presence := some (s.timeoutOf hd.port)
    reasons := (t.port hd.port).reasons
    sent := (s.port hd.port).sent ++ [⟨code, hd.tag, st, t.attention hd.port, body⟩] } ∧
  ∀ q, q ≠ hd.port → t.port q = { s.port q with reasons := (t.port q).reasons }

/-- CUSTODY_CHANGED stands at all three ports (R108). -/
def CustodyChangeRaised (t : State) : Prop := ∀ q, (t.port q).reasons.custodyChanged = true

/-- The event reasons of every port are as they were, but that CUSTODY_CHANGED has been raised at all three. -/
def OnlyCustodyRaised (s t : State) : Prop :=
  ∀ q, (t.port q).reasons = { (s.port q).reasons with custodyChanged := true }

/-- Nothing that an earlier arrival made due is still to be taken (log entry 3): no hold, lease or presence timer stands
at 0, and no reached switch frame waits. -/
def Quiet (s : State) : Prop :=
  (∀ p, (s.port p).presence ≠ some 0) ∧
  ∀ i l, s.live i = some l → l.custody.switchDue = false ∧ (∀ hr, l.hold = some hr → hr.timer ≠ 0) ∧
    ∀ b, l.batch = some b → b.phase ≠ .opened 0

/-- The highest house frame of the house rate in force (R8). -/
def highestFrame (s : State) : Nat := 65536 * fpd s.house.rate - 1

/-- The H that an arrival without a time set carries in a set reference: the next, standing still at the highest (R8).
-/
def arrivalFrame (s : State) : Nat := if s.reference.h < highestFrame s then s.reference.h + 1 else s.reference.h

/-- The command is a frame arrival of the source `src` at `moment`, and the arrival comes about: a pulse half a nominal
period or more after the last arrival, or the timebase at its deadline (R5, R6). -/
def IsArrival (s : State) (moment : Nat) (first : List Nat) (src : ArrivalSource) (c : Instr) : Prop :=
  (src = .pulse ∧ c = .housePulse moment first ∧
    ∀ la, s.reference.last = some la → nominalPeriod s.house.rate / 2 ≤ moment - la.moment) ∨
  (src = .timebase ∧ c = .insertedArrival moment first ∧ timebaseDeadline s.house.rate s.reference.last ≤ moment)

/-- The bodies of the entries that an advancing arrival at `h` writes for a channel under a DR output whose segment is
of the event followed: the AIRED entry of the event that ended, and a SKIPPED entry for each event skipped at `h`, in
list order (R67, R167, R168). -/
def arrivalEntries (l : Live) (h : Nat) : List EntryBody :=
  (match l.segment with
    | some g => if (cursorAt l.events l.timeline h).onEvent g.eventId = false ∧ g.firstFrame < h then
        [.aired g.eventId g.firstFrame g.firstOffset (h - g.firstFrame) g.output] else []
    | none => []) ++
  ((l.events.zip l.timeline).filter fun c => decide (c.2.state = .skipped ∧ c.2.start = some h)).map
    fun c => .skipped c.1.id

/-- The body of the AIRED entry that the close of a segment at `frame` writes, where it aired a frame (R167; for one
whose first frame lies beyond `frame`, log entry 45). -/
def airedEntries (frame : Nat) : Option Segment → List EntryBody
  | some g => if g.firstFrame < frame then
      [.aired g.eventId g.firstFrame g.firstOffset (frame - g.firstFrame) g.output] else []
  | none => []

/-- `t`'s log ends with the entries `bodies` of slot `i` at `frame`, in this order, under the numbers from `n` on, which
`s`'s log was to give (R163, R164). -/
def Written (i : Slot) (frame n : Nat) (bodies : List EntryBody) (s t : State) : Prop :=
  t.asRun.nextSeq = some (n + bodies.length) ∧
  ((bodies.zipIdx n).map fun x =>
    (⟨x.2, i.val, s.service i, frame, s.house.rate, x.1⟩ : LogEntry)) <:+ t.asRun.ring

/-- The ids of a channel's protected set at H in list order, none while the reference is UNSET: the placed events that
start before H + guard and have not finished at H, or, on a held channel, the held event and the one after it (R60). -/
def protectedIdsAt (l : Live) (guard : Nat) : Option Nat → List Nat
  | none => []
  | some h =>
    let timed := l.events.zip l.timeline
    let drawn : List (EventRec × Resolved) := match l.hold with
      | some hr => (timed.dropWhile fun c => decide (c.1.id ≠ hr.eventId)).take 2
      | none => timed.filter fun c => match c.2.start, c.2.duration with
        | some b, .frames 0 => decide (b < h + guard ∧ h < b)
        | some b, .frames d => decide (b < h + guard ∧ h < b + d)
        | some b, .open => decide (b < h + guard)
        | _, _ => false
    drawn.map (·.1.id)

/-- A READ AS-RUN of `count` and `set` was accepted: it returned the entries `got`, examined up to `last`, and changed
nothing but its own port, whose read mark moved to `last` in follow mode (R174, R175, R176). -/
def AsRunAnswered (hd : Head) (count : Nat) (set : SetField) (s : State) (got : List LogEntry) (last : Option Nat)
    (more : Bool) : Prop :=
  let u := s.port hd.port
  let mark := if u.follow then last.getD u.mark else u.mark
  let oldest := s.asRun.ring.head?.map (·.seq)
  ∃ t, exec (.readAsRun hd (.fields ⟨count, set⟩)) s = .next t ∧ OnlyPort hd.port s t ∧
    t.port hd.port = { u with
      receive := .hunting
      presence := some (s.timeoutOf hd.port)
      mark := mark
      sent := u.sent ++ [⟨24, hd.tag, if 16 < count then .adjusted else .ok, t.attention hd.port, .asRun
        { entries := got.map fun e => ⟨e, frameField e.rate e.frame, match e.body with
            | .aired _ first _ _ _ => some (frameField e.rate first)
            | _ => none⟩
          returned := got.length
          overwritten := match oldest with
            | some o => if u.mark + 1 < o then o - (u.mark + 1) else 0
            | none => 0
          lastExamined := last, mark := mark, follow := u.follow, newest := s.asRun.newest, oldest := oldest
          full := s.asRun.nextSeq.isNone, dropped := s.asRun.dropped, more := more }⟩] }

/-- The policy index that a channel's stored conditions give, 8·M + 4·S + 2·L + A (R116). -/
def policyIndex (c : Custody) : Nat :=
  (if c.m then 8 else 0) + (if c.s then 4 else 0) + (if c.l then 2 else 0) + if c.a then 1 else 0

/-- R117: what one event has left of a channel's last evaluation record, `before` the event and `after` it.  With no
condition changed, and outside MAIN and SAFE, no evaluation was made.  With one changed in MAIN or SAFE, one was, at
`frame` and at the new index, with the table's action there; a takeover stands exactly where its outcome says that one
started. -/
def EvaluatedOnChange (p : ChannelParams) (frame : Option Nat) (before after : Custody) : Prop :=
  let changed := after.m ≠ before.m ∨ after.s ≠ before.s ∨ after.l ≠ before.l ∨ after.a ≠ before.a
  let evaluates := before.state = .main ∨ before.state = .safe
  (¬(changed ∧ evaluates) → after.lastEval = before.lastEval) ∧
  (changed → evaluates → ∃ out,
    after.lastEval = some ⟨frame, policyIndex after, p.policy.getD (policyIndex after) .none, out⟩ ∧
    after.state = if out = .takeStarted then .taking else before.state)

/-- The event reasons of every port are as they were. -/
def ReasonsKept (s t : State) : Prop := ∀ q, (t.port q).reasons = (s.port q).reasons

/-! ## Laws -/

/-- `P` holds of every in-service channel, given its slot's parameters. -/
def EveryChannel (P : ChannelParams → Live → Prop) (s : State) : Prop :=
  ∀ i l, s.live i = some l → P (s.params i) l

/-- R108: the output is MAIN, DR_A, DR_B or SAFE exactly as the custodian is L, A, B or none. -/
def OutputLaw (s : State) : Prop := EveryChannel (fun _ l => l.custody.output = outputOf l.custody.custodian) s

/-- R40: the timeline is the resolution of the list, the channel anchor and the identity of the held event. -/
def TimelineLaw (s : State) : Prop := EveryChannel (fun _ l => l.timeline = l.resolveNow) s

/-- R83: no more than 8 batches are OPEN or SEALED. -/
def StagingLaw (s : State) : Prop := s.buffersInUse ≤ Config.stagingBuffers

/-- R24: a list is within a quota, and no two of its events have the same id. -/
def ListSound (quota : Nat) (es : List EventRec) : Prop := es.length ≤ quota ∧ (es.map (·.id)).Nodup

/-- R20, R24, R83, R186: the quota sum is at most 8,192; every list is within its quota and holds no two events of one
id, a list that a completion has stored and not yet installed among them; and a completion is under way on a channel
only while its commit is in flight. -/
def PoolLaw (s : State) : Prop :=
  s.quotaSum ≤ Config.poolSlots ∧
  EveryChannel (fun p l => ListSound p.quota l.events ∧ ListSound p.quota l.storedEvents ∧
    (l.completion.isSome = true → l.inFlight = true)) s

/-- R180, R181: the house parameters and the parameters of every entry lie in their ranges, and every entry
satisfies the two relations. -/
def ParameterLaw (s : State) : Prop :=
  houseInRange s.house = true ∧ ∀ i, paramsInRange (s.params i) = true ∧ paramsRelated (s.params i) = true

/-- R185: every in-service channel carries a service ID, and no two carry the same. -/
def MapLaw (s : State) : Prop :=
  EveryChannel (fun p _ => p.serviceId.isSome = true) s ∧
  ∀ i j li lj, s.live i = some li → s.live j = some lj → (s.params i).serviceId = (s.params j).serviceId → i = j

/-- R163, R172: at most 2,048 entries are retained, under consecutive numbers of which the last is the newest, and
the next number follows it or, at the last number of 48 bits, is none. -/
def RingLaw (r : AsRun) : Prop :=
  r.ring.length ≤ Config.ringEntries ∧
  r.ring.map (·.seq) = List.range' (r.newest + 1 - r.ring.length) r.ring.length ∧
  r.ring.length ≤ r.newest ∧
  ((r.newest < Config.lastSequence ∧ r.nextSeq = some (r.newest + 1)) ∨
    (r.newest = Config.lastSequence ∧ r.nextSeq = none))

/-- R163, R171, R173: the ring is in order, no read mark exceeds the newest number, and no channel's latest number
does. -/
def LogLaw (s : State) : Prop :=
  RingLaw s.asRun ∧ (∀ p, (s.port p).mark ≤ s.asRun.newest) ∧ EveryChannel (fun _ l => l.latestSeq ≤ s.asRun.newest) s

/-- R165: a segment is open only under a DR output, and under that output. -/
def SegmentLaw (s : State) : Prop :=
  EveryChannel (fun _ l => ∀ g, l.segment = some g → isDrOutput l.custody.output = true ∧ g.output = l.custody.output) s

/-- What a custody state that is no transit goes with: the custodian (R106). -/
def restsWith (st : CustodyState) (custodian : Option Port) : Prop :=
  (st = .main ∧ custodian = some .L) ∨ (st = .dr ∧ (custodian = some .A ∨ custodian = some .B)) ∨
  (st = .safe ∧ custodian = none)

/-- R106, R107, R149: the custody state agrees with the custodian and with the records held.  A TAKING channel holds a
takeover record and the custodian that its previous state had, or none where a miss of a takeover from MAIN has moved
it to SAFE; a RETURNING one holds a return record under a DR custodian; any other holds neither record. -/
def custodyAgrees (c : Custody) : Prop :=
  match c.state with
  | .idle => False
  | .taking => c.ret = none ∧ ∃ t, c.takeover = some t ∧
      (restsWith t.prevState c.custodian ∨ (t.prevState = .main ∧ c.custodian = none))
  | .returning => c.takeover = none ∧ c.ret.isSome = true ∧ (c.custodian = some .A ∨ c.custodian = some .B)
  | st => c.takeover = none ∧ c.ret = none ∧ restsWith st c.custodian

/-- R136, R137: the cue of a TAKING channel is COMPUTING, without contents and with a commit in flight, or it is what
the cursor at its switch frame makes of it. -/
def CueLaw (s : State) : Prop :=
  EveryChannel (fun _ l => ∀ k, l.custody.state = .taking → l.custody.takeover = some k →
    if k.cue.state = .computing then k.cue.body = none ∧ l.inFlight = true
    else k.cue.body = some (cueBodyOf (l.hold.map (·.eventId)) (cursorAt l.events l.timeline k.cue.switchFrame))) s

/-- The custody state of every in-service channel agrees with its records. -/
def CustodyLaw (s : State) : Prop :=
  OutputLaw s ∧ EveryChannel (fun _ l => custodyAgrees l.custody) s

end Sys2Proof.Machine
end

