-- ==== Sys2Proof/Laws/State.lean ====
section
/-! SUPPORT. One lemma per field per update of the state: what each named write leaves in each field. -/

namespace Sys2Proof.Machine

/-! ## Ports -/

@[simp] theorem State.port_setPort_self (s : State) (p : Port) (u : PortUnit) : (s.setPort p u).port p = u := by
  cases p <;> rfl

@[simp] theorem State.port_setPort_ne (s : State) {p q : Port} (u : PortUnit) (h : q ≠ p) :
    (s.setPort p u).port q = s.port q := by
  cases p <;> cases q <;> first | rfl | exact absurd rfl h

theorem State.port_setPort (s : State) (p q : Port) (u : PortUnit) :
    (s.setPort p u).port q = if q = p then u else s.port q := by
  by_cases h : q = p
  · subst h; simp
  · simp [h]

@[simp] theorem State.setPort_setPort (s : State) (p : Port) (u v : PortUnit) :
    (s.setPort p u).setPort p v = s.setPort p v := by
  cases p <;> rfl

@[simp] theorem State.setPort_port (s : State) (p : Port) : s.setPort p (s.port p) = s := by
  cases p <;> rfl

@[simp] theorem State.pending_setPort (s : State) (p : Port) (u : PortUnit) : (s.setPort p u).pending = s.pending := by
  cases p <;> rfl

@[simp] theorem State.reference_setPort (s : State) (p : Port) (u : PortUnit) : (s.setPort p u).reference = s.reference := by
  cases p <;> rfl

@[simp] theorem State.house_setPort (s : State) (p : Port) (u : PortUnit) : (s.setPort p u).house = s.house := by
  cases p <;> rfl

@[simp] theorem State.storeReady_setPort (s : State) (p : Port) (u : PortUnit) : (s.setPort p u).storeReady = s.storeReady := by
  cases p <;> rfl

@[simp] theorem State.channels_setPort (s : State) (p : Port) (u : PortUnit) : (s.setPort p u).channels = s.channels := by
  cases p <;> rfl

@[simp] theorem State.asRun_setPort (s : State) (p : Port) (u : PortUnit) : (s.setPort p u).asRun = s.asRun := by
  cases p <;> rfl

@[simp] theorem State.houseFlags_setPort (s : State) (p : Port) (u : PortUnit) : (s.setPort p u).houseFlags = s.houseFlags := by
  cases p <;> rfl

@[simp] theorem State.capture_setPort (s : State) (p : Port) (u : PortUnit) : (s.setPort p u).capture = s.capture := by
  cases p <;> rfl

@[simp] theorem State.chan_setPort (s : State) (p : Port) (u : PortUnit) (i : Slot) :
    (s.setPort p u).chan i = s.chan i := by
  cases p <;> rfl

@[simp] theorem State.live_setPort (s : State) (p : Port) (u : PortUnit) (i : Slot) :
    (s.setPort p u).live i = s.live i := by
  cases p <;> rfl

@[simp] theorem State.params_setPort (s : State) (p : Port) (u : PortUnit) (i : Slot) :
    (s.setPort p u).params i = s.params i := by
  cases p <;> rfl

/-! ## Channels -/

@[simp] theorem State.chan_setChan_self (s : State) (i : Slot) (c : Channel) : (s.setChan i c).chan i = c := by
  simp [State.chan, State.setChan]

@[simp] theorem State.chan_setChan_ne (s : State) {i j : Slot} (c : Channel) (h : j ≠ i) :
    (s.setChan i c).chan j = s.chan j := by
  have h' : (i : Nat) ≠ j := fun e => h (Fin.ext e.symm)
  simp [State.chan, State.setChan, Vector.getElem_set_ne, h']

theorem State.chan_setChan (s : State) (i j : Slot) (c : Channel) :
    (s.setChan i c).chan j = if j = i then c else s.chan j := by
  by_cases h : j = i
  · subst h; simp
  · simp [h]

@[simp] theorem State.live_setChan_self (s : State) (i : Slot) (c : Channel) : (s.setChan i c).live i = c.live := by
  simp [State.live]

@[simp] theorem State.live_setChan_ne (s : State) {i j : Slot} (c : Channel) (h : j ≠ i) :
    (s.setChan i c).live j = s.live j := by
  simp [State.live, h]

@[simp] theorem State.params_setChan_self (s : State) (i : Slot) (c : Channel) :
    (s.setChan i c).params i = c.params := by
  simp [State.params]

@[simp] theorem State.params_setChan_ne (s : State) {i j : Slot} (c : Channel) (h : j ≠ i) :
    (s.setChan i c).params j = s.params j := by
  simp [State.params, h]

@[simp] theorem State.live_setLive_self (s : State) (i : Slot) (l : Live) : (s.setLive i l).live i = some l := by
  simp [State.setLive]

@[simp] theorem State.live_setLive_ne (s : State) {i j : Slot} (l : Live) (h : j ≠ i) :
    (s.setLive i l).live j = s.live j := by
  simp [State.setLive, h]

theorem State.live_setLive (s : State) (i j : Slot) (l : Live) :
    (s.setLive i l).live j = if j = i then some l else s.live j := by
  by_cases h : j = i
  · subst h; simp
  · simp [h]

@[simp] theorem State.params_setLive (s : State) (i j : Slot) (l : Live) : (s.setLive i l).params j = s.params j := by
  by_cases h : j = i
  · subst h; simp [State.setLive, State.params]
  · simp [State.setLive, h]

@[simp] theorem State.setChan_setChan (s : State) (i : Slot) (c d : Channel) :
    (s.setChan i c).setChan i d = s.setChan i d := by
  simp [State.setChan]

@[simp] theorem State.setLive_setLive (s : State) (i : Slot) (l m : Live) :
    (s.setLive i l).setLive i m = s.setLive i m := by
  simp [State.setLive]

@[simp] theorem State.setChan_chan (s : State) (i : Slot) : s.setChan i (s.chan i) = s := by
  simp [State.setChan, State.chan]

/-- Writing back the state a channel has changes nothing. -/
theorem State.setLive_of_live {s : State} {i : Slot} {l : Live} (h : s.live i = some l) : s.setLive i l = s := by
  have hc : s.chan i = ⟨(s.chan i).params, some l⟩ := by
    cases hs : s.chan i with
    | mk p m => simp only [State.live, hs] at h; simp [h]
  unfold State.setLive
  rw [← hc]
  simp

@[simp] theorem State.setParams_live (s : State) (i j : Slot) (p : ChannelParams) :
    (s.setParams i p).live j = s.live j := by
  by_cases h : j = i
  · subst h; simp [State.setParams, State.live]
  · simp [State.setParams, h]

@[simp] theorem State.setParams_params_self (s : State) (i : Slot) (p : ChannelParams) :
    (s.setParams i p).params i = p := by
  simp [State.setParams]

@[simp] theorem State.setParams_params_ne (s : State) {i j : Slot} (p : ChannelParams) (h : j ≠ i) :
    (s.setParams i p).params j = s.params j := by
  simp [State.setParams, h]

@[simp] theorem State.pending_setChan (s : State) (i : Slot) (c : Channel) : (s.setChan i c).pending = s.pending := rfl

@[simp] theorem State.reference_setChan (s : State) (i : Slot) (c : Channel) : (s.setChan i c).reference = s.reference := rfl

@[simp] theorem State.house_setChan (s : State) (i : Slot) (c : Channel) : (s.setChan i c).house = s.house := rfl

@[simp] theorem State.storeReady_setChan (s : State) (i : Slot) (c : Channel) : (s.setChan i c).storeReady = s.storeReady := rfl

@[simp] theorem State.portL_setChan (s : State) (i : Slot) (c : Channel) : (s.setChan i c).portL = s.portL := rfl

@[simp] theorem State.portA_setChan (s : State) (i : Slot) (c : Channel) : (s.setChan i c).portA = s.portA := rfl

@[simp] theorem State.portB_setChan (s : State) (i : Slot) (c : Channel) : (s.setChan i c).portB = s.portB := rfl

@[simp] theorem State.asRun_setChan (s : State) (i : Slot) (c : Channel) : (s.setChan i c).asRun = s.asRun := rfl

@[simp] theorem State.houseFlags_setChan (s : State) (i : Slot) (c : Channel) : (s.setChan i c).houseFlags = s.houseFlags := rfl

@[simp] theorem State.capture_setChan (s : State) (i : Slot) (c : Channel) : (s.setChan i c).capture = s.capture := rfl

@[simp] theorem State.port_setChan (s : State) (i : Slot) (c : Channel) (q : Port) : (s.setChan i c).port q = s.port q := by
  cases q <;> rfl

@[simp] theorem State.pending_setLive (s : State) (i : Slot) (l : Live) : (s.setLive i l).pending = s.pending := rfl

@[simp] theorem State.reference_setLive (s : State) (i : Slot) (l : Live) : (s.setLive i l).reference = s.reference := rfl

@[simp] theorem State.house_setLive (s : State) (i : Slot) (l : Live) : (s.setLive i l).house = s.house := rfl

@[simp] theorem State.storeReady_setLive (s : State) (i : Slot) (l : Live) : (s.setLive i l).storeReady = s.storeReady := rfl

@[simp] theorem State.portL_setLive (s : State) (i : Slot) (l : Live) : (s.setLive i l).portL = s.portL := rfl

@[simp] theorem State.portA_setLive (s : State) (i : Slot) (l : Live) : (s.setLive i l).portA = s.portA := rfl

@[simp] theorem State.portB_setLive (s : State) (i : Slot) (l : Live) : (s.setLive i l).portB = s.portB := rfl

@[simp] theorem State.asRun_setLive (s : State) (i : Slot) (l : Live) : (s.setLive i l).asRun = s.asRun := rfl

@[simp] theorem State.houseFlags_setLive (s : State) (i : Slot) (l : Live) : (s.setLive i l).houseFlags = s.houseFlags := rfl

@[simp] theorem State.capture_setLive (s : State) (i : Slot) (l : Live) : (s.setLive i l).capture = s.capture := rfl

@[simp] theorem State.port_setLive (s : State) (i : Slot) (l : Live) (q : Port) : (s.setLive i l).port q = s.port q := by
  cases q <;> rfl

@[simp] theorem State.pending_setParams (s : State) (i : Slot) (p : ChannelParams) : (s.setParams i p).pending = s.pending := rfl

@[simp] theorem State.reference_setParams (s : State) (i : Slot) (p : ChannelParams) : (s.setParams i p).reference = s.reference := rfl

@[simp] theorem State.house_setParams (s : State) (i : Slot) (p : ChannelParams) : (s.setParams i p).house = s.house := rfl

@[simp] theorem State.storeReady_setParams (s : State) (i : Slot) (p : ChannelParams) : (s.setParams i p).storeReady = s.storeReady := rfl

@[simp] theorem State.portL_setParams (s : State) (i : Slot) (p : ChannelParams) : (s.setParams i p).portL = s.portL := rfl

@[simp] theorem State.portA_setParams (s : State) (i : Slot) (p : ChannelParams) : (s.setParams i p).portA = s.portA := rfl

@[simp] theorem State.portB_setParams (s : State) (i : Slot) (p : ChannelParams) : (s.setParams i p).portB = s.portB := rfl

@[simp] theorem State.asRun_setParams (s : State) (i : Slot) (p : ChannelParams) : (s.setParams i p).asRun = s.asRun := rfl

@[simp] theorem State.houseFlags_setParams (s : State) (i : Slot) (p : ChannelParams) : (s.setParams i p).houseFlags = s.houseFlags := rfl

@[simp] theorem State.capture_setParams (s : State) (i : Slot) (p : ChannelParams) : (s.setParams i p).capture = s.capture := rfl

@[simp] theorem State.port_setParams (s : State) (i : Slot) (p : ChannelParams) (q : Port) : (s.setParams i p).port q = s.port q := by
  cases q <;> rfl

/-! ## Attention, replies and presence -/

@[simp] theorem State.pending_raise (s : State) (p : Port) (f : EventReasons → EventReasons) :
    (s.raise p f).pending = s.pending := by
  simp [State.raise]

@[simp] theorem State.reference_raise (s : State) (p : Port) (f : EventReasons → EventReasons) :
    (s.raise p f).reference = s.reference := by
  simp [State.raise]

@[simp] theorem State.house_raise (s : State) (p : Port) (f : EventReasons → EventReasons) :
    (s.raise p f).house = s.house := by
  simp [State.raise]

@[simp] theorem State.storeReady_raise (s : State) (p : Port) (f : EventReasons → EventReasons) :
    (s.raise p f).storeReady = s.storeReady := by
  simp [State.raise]

@[simp] theorem State.channels_raise (s : State) (p : Port) (f : EventReasons → EventReasons) :
    (s.raise p f).channels = s.channels := by
  simp [State.raise]

@[simp] theorem State.asRun_raise (s : State) (p : Port) (f : EventReasons → EventReasons) :
    (s.raise p f).asRun = s.asRun := by
  simp [State.raise]

@[simp] theorem State.houseFlags_raise (s : State) (p : Port) (f : EventReasons → EventReasons) :
    (s.raise p f).houseFlags = s.houseFlags := by
  simp [State.raise]

@[simp] theorem State.capture_raise (s : State) (p : Port) (f : EventReasons → EventReasons) :
    (s.raise p f).capture = s.capture := by
  simp [State.raise]

@[simp] theorem State.chan_raise (s : State) (p : Port) (f : EventReasons → EventReasons) (j : Slot) :
    (s.raise p f).chan j = s.chan j := by
  simp [State.raise]

@[simp] theorem State.live_raise (s : State) (p : Port) (f : EventReasons → EventReasons) (j : Slot) :
    (s.raise p f).live j = s.live j := by
  simp [State.raise]

@[simp] theorem State.params_raise (s : State) (p : Port) (f : EventReasons → EventReasons) (j : Slot) :
    (s.raise p f).params j = s.params j := by
  simp [State.raise]

@[simp] theorem State.pending_raiseCustodyChanged (s : State) :
    (s.raiseCustodyChanged).pending = s.pending := by
  simp [State.raiseCustodyChanged]

@[simp] theorem State.reference_raiseCustodyChanged (s : State) :
    (s.raiseCustodyChanged).reference = s.reference := by
  simp [State.raiseCustodyChanged]

@[simp] theorem State.house_raiseCustodyChanged (s : State) :
    (s.raiseCustodyChanged).house = s.house := by
  simp [State.raiseCustodyChanged]

@[simp] theorem State.storeReady_raiseCustodyChanged (s : State) :
    (s.raiseCustodyChanged).storeReady = s.storeReady := by
  simp [State.raiseCustodyChanged]

@[simp] theorem State.channels_raiseCustodyChanged (s : State) :
    (s.raiseCustodyChanged).channels = s.channels := by
  simp [State.raiseCustodyChanged]

@[simp] theorem State.asRun_raiseCustodyChanged (s : State) :
    (s.raiseCustodyChanged).asRun = s.asRun := by
  simp [State.raiseCustodyChanged]

@[simp] theorem State.houseFlags_raiseCustodyChanged (s : State) :
    (s.raiseCustodyChanged).houseFlags = s.houseFlags := by
  simp [State.raiseCustodyChanged]

@[simp] theorem State.capture_raiseCustodyChanged (s : State) :
    (s.raiseCustodyChanged).capture = s.capture := by
  simp [State.raiseCustodyChanged]

@[simp] theorem State.chan_raiseCustodyChanged (s : State) (j : Slot) :
    (s.raiseCustodyChanged).chan j = s.chan j := by
  simp [State.raiseCustodyChanged]

@[simp] theorem State.live_raiseCustodyChanged (s : State) (j : Slot) :
    (s.raiseCustodyChanged).live j = s.live j := by
  simp [State.raiseCustodyChanged]

@[simp] theorem State.params_raiseCustodyChanged (s : State) (j : Slot) :
    (s.raiseCustodyChanged).params j = s.params j := by
  simp [State.raiseCustodyChanged]

@[simp] theorem State.pending_raisePolicyNotice (s : State) :
    (s.raisePolicyNotice).pending = s.pending := by
  simp [State.raisePolicyNotice]

@[simp] theorem State.reference_raisePolicyNotice (s : State) :
    (s.raisePolicyNotice).reference = s.reference := by
  simp [State.raisePolicyNotice]

@[simp] theorem State.house_raisePolicyNotice (s : State) :
    (s.raisePolicyNotice).house = s.house := by
  simp [State.raisePolicyNotice]

@[simp] theorem State.storeReady_raisePolicyNotice (s : State) :
    (s.raisePolicyNotice).storeReady = s.storeReady := by
  simp [State.raisePolicyNotice]

@[simp] theorem State.channels_raisePolicyNotice (s : State) :
    (s.raisePolicyNotice).channels = s.channels := by
  simp [State.raisePolicyNotice]

@[simp] theorem State.asRun_raisePolicyNotice (s : State) :
    (s.raisePolicyNotice).asRun = s.asRun := by
  simp [State.raisePolicyNotice]

@[simp] theorem State.houseFlags_raisePolicyNotice (s : State) :
    (s.raisePolicyNotice).houseFlags = s.houseFlags := by
  simp [State.raisePolicyNotice]

@[simp] theorem State.capture_raisePolicyNotice (s : State) :
    (s.raisePolicyNotice).capture = s.capture := by
  simp [State.raisePolicyNotice]

@[simp] theorem State.chan_raisePolicyNotice (s : State) (j : Slot) :
    (s.raisePolicyNotice).chan j = s.chan j := by
  simp [State.raisePolicyNotice]

@[simp] theorem State.live_raisePolicyNotice (s : State) (j : Slot) :
    (s.raisePolicyNotice).live j = s.live j := by
  simp [State.raisePolicyNotice]

@[simp] theorem State.params_raisePolicyNotice (s : State) (j : Slot) :
    (s.raisePolicyNotice).params j = s.params j := by
  simp [State.raisePolicyNotice]

@[simp] theorem State.pending_raiseFault (s : State) :
    (s.raiseFault).pending = s.pending := by
  simp [State.raiseFault]

@[simp] theorem State.reference_raiseFault (s : State) :
    (s.raiseFault).reference = s.reference := by
  simp [State.raiseFault]

@[simp] theorem State.house_raiseFault (s : State) :
    (s.raiseFault).house = s.house := by
  simp [State.raiseFault]

@[simp] theorem State.storeReady_raiseFault (s : State) :
    (s.raiseFault).storeReady = s.storeReady := by
  simp [State.raiseFault]

@[simp] theorem State.channels_raiseFault (s : State) :
    (s.raiseFault).channels = s.channels := by
  simp [State.raiseFault]

@[simp] theorem State.asRun_raiseFault (s : State) :
    (s.raiseFault).asRun = s.asRun := by
  simp [State.raiseFault]

@[simp] theorem State.houseFlags_raiseFault (s : State) :
    (s.raiseFault).houseFlags = s.houseFlags := by
  simp [State.raiseFault]

@[simp] theorem State.capture_raiseFault (s : State) :
    (s.raiseFault).capture = s.capture := by
  simp [State.raiseFault]

@[simp] theorem State.chan_raiseFault (s : State) (j : Slot) :
    (s.raiseFault).chan j = s.chan j := by
  simp [State.raiseFault]

@[simp] theorem State.live_raiseFault (s : State) (j : Slot) :
    (s.raiseFault).live j = s.live j := by
  simp [State.raiseFault]

@[simp] theorem State.params_raiseFault (s : State) (j : Slot) :
    (s.raiseFault).params j = s.params j := by
  simp [State.raiseFault]

@[simp] theorem State.pending_raiseReturnPending (s : State) (p : Port) :
    (s.raiseReturnPending p).pending = s.pending := by
  simp [State.raiseReturnPending]

@[simp] theorem State.reference_raiseReturnPending (s : State) (p : Port) :
    (s.raiseReturnPending p).reference = s.reference := by
  simp [State.raiseReturnPending]

@[simp] theorem State.house_raiseReturnPending (s : State) (p : Port) :
    (s.raiseReturnPending p).house = s.house := by
  simp [State.raiseReturnPending]

@[simp] theorem State.storeReady_raiseReturnPending (s : State) (p : Port) :
    (s.raiseReturnPending p).storeReady = s.storeReady := by
  simp [State.raiseReturnPending]

@[simp] theorem State.channels_raiseReturnPending (s : State) (p : Port) :
    (s.raiseReturnPending p).channels = s.channels := by
  simp [State.raiseReturnPending]

@[simp] theorem State.asRun_raiseReturnPending (s : State) (p : Port) :
    (s.raiseReturnPending p).asRun = s.asRun := by
  simp [State.raiseReturnPending]

@[simp] theorem State.houseFlags_raiseReturnPending (s : State) (p : Port) :
    (s.raiseReturnPending p).houseFlags = s.houseFlags := by
  simp [State.raiseReturnPending]

@[simp] theorem State.capture_raiseReturnPending (s : State) (p : Port) :
    (s.raiseReturnPending p).capture = s.capture := by
  simp [State.raiseReturnPending]

@[simp] theorem State.chan_raiseReturnPending (s : State) (p : Port) (j : Slot) :
    (s.raiseReturnPending p).chan j = s.chan j := by
  simp [State.raiseReturnPending]

@[simp] theorem State.live_raiseReturnPending (s : State) (p : Port) (j : Slot) :
    (s.raiseReturnPending p).live j = s.live j := by
  simp [State.raiseReturnPending]

@[simp] theorem State.params_raiseReturnPending (s : State) (p : Port) (j : Slot) :
    (s.raiseReturnPending p).params j = s.params j := by
  simp [State.raiseReturnPending]

@[simp] theorem State.pending_reply (s : State) (p : Port) (code tag : Nat) (st : Status) (b : ReplyBody) :
    (s.reply p code tag st b).pending = s.pending := by
  simp [State.reply]

@[simp] theorem State.reference_reply (s : State) (p : Port) (code tag : Nat) (st : Status) (b : ReplyBody) :
    (s.reply p code tag st b).reference = s.reference := by
  simp [State.reply]

@[simp] theorem State.house_reply (s : State) (p : Port) (code tag : Nat) (st : Status) (b : ReplyBody) :
    (s.reply p code tag st b).house = s.house := by
  simp [State.reply]

@[simp] theorem State.storeReady_reply (s : State) (p : Port) (code tag : Nat) (st : Status) (b : ReplyBody) :
    (s.reply p code tag st b).storeReady = s.storeReady := by
  simp [State.reply]

@[simp] theorem State.channels_reply (s : State) (p : Port) (code tag : Nat) (st : Status) (b : ReplyBody) :
    (s.reply p code tag st b).channels = s.channels := by
  simp [State.reply]

@[simp] theorem State.asRun_reply (s : State) (p : Port) (code tag : Nat) (st : Status) (b : ReplyBody) :
    (s.reply p code tag st b).asRun = s.asRun := by
  simp [State.reply]

@[simp] theorem State.houseFlags_reply (s : State) (p : Port) (code tag : Nat) (st : Status) (b : ReplyBody) :
    (s.reply p code tag st b).houseFlags = s.houseFlags := by
  simp [State.reply]

@[simp] theorem State.capture_reply (s : State) (p : Port) (code tag : Nat) (st : Status) (b : ReplyBody) :
    (s.reply p code tag st b).capture = s.capture := by
  simp [State.reply]

@[simp] theorem State.chan_reply (s : State) (p : Port) (code tag : Nat) (st : Status) (b : ReplyBody) (j : Slot) :
    (s.reply p code tag st b).chan j = s.chan j := by
  simp [State.reply]

@[simp] theorem State.live_reply (s : State) (p : Port) (code tag : Nat) (st : Status) (b : ReplyBody) (j : Slot) :
    (s.reply p code tag st b).live j = s.live j := by
  simp [State.reply]

@[simp] theorem State.params_reply (s : State) (p : Port) (code tag : Nat) (st : Status) (b : ReplyBody) (j : Slot) :
    (s.reply p code tag st b).params j = s.params j := by
  simp [State.reply]

@[simp] theorem State.pending_replyLater (s : State) (p : Port) (code tag : Nat) (st : Status) (b : ReplyBody) :
    (s.replyLater p code tag st b).pending = s.pending := by
  simp [State.replyLater]

@[simp] theorem State.reference_replyLater (s : State) (p : Port) (code tag : Nat) (st : Status) (b : ReplyBody) :
    (s.replyLater p code tag st b).reference = s.reference := by
  simp [State.replyLater]

@[simp] theorem State.house_replyLater (s : State) (p : Port) (code tag : Nat) (st : Status) (b : ReplyBody) :
    (s.replyLater p code tag st b).house = s.house := by
  simp [State.replyLater]

@[simp] theorem State.storeReady_replyLater (s : State) (p : Port) (code tag : Nat) (st : Status) (b : ReplyBody) :
    (s.replyLater p code tag st b).storeReady = s.storeReady := by
  simp [State.replyLater]

@[simp] theorem State.channels_replyLater (s : State) (p : Port) (code tag : Nat) (st : Status) (b : ReplyBody) :
    (s.replyLater p code tag st b).channels = s.channels := by
  simp [State.replyLater]

@[simp] theorem State.asRun_replyLater (s : State) (p : Port) (code tag : Nat) (st : Status) (b : ReplyBody) :
    (s.replyLater p code tag st b).asRun = s.asRun := by
  simp [State.replyLater]

@[simp] theorem State.houseFlags_replyLater (s : State) (p : Port) (code tag : Nat) (st : Status) (b : ReplyBody) :
    (s.replyLater p code tag st b).houseFlags = s.houseFlags := by
  simp [State.replyLater]

@[simp] theorem State.capture_replyLater (s : State) (p : Port) (code tag : Nat) (st : Status) (b : ReplyBody) :
    (s.replyLater p code tag st b).capture = s.capture := by
  simp [State.replyLater]

@[simp] theorem State.chan_replyLater (s : State) (p : Port) (code tag : Nat) (st : Status) (b : ReplyBody) (j : Slot) :
    (s.replyLater p code tag st b).chan j = s.chan j := by
  simp [State.replyLater]

@[simp] theorem State.live_replyLater (s : State) (p : Port) (code tag : Nat) (st : Status) (b : ReplyBody) (j : Slot) :
    (s.replyLater p code tag st b).live j = s.live j := by
  simp [State.replyLater]

@[simp] theorem State.params_replyLater (s : State) (p : Port) (code tag : Nat) (st : Status) (b : ReplyBody) (j : Slot) :
    (s.replyLater p code tag st b).params j = s.params j := by
  simp [State.replyLater]

@[simp] theorem State.pending_answer (s : State) (hd : Head) (code : Nat) (st : Status) (b : ReplyBody) :
    (s.answer hd code st b).pending = s.pending := by
  simp [State.answer]

@[simp] theorem State.reference_answer (s : State) (hd : Head) (code : Nat) (st : Status) (b : ReplyBody) :
    (s.answer hd code st b).reference = s.reference := by
  simp [State.answer]

@[simp] theorem State.house_answer (s : State) (hd : Head) (code : Nat) (st : Status) (b : ReplyBody) :
    (s.answer hd code st b).house = s.house := by
  simp [State.answer]

@[simp] theorem State.storeReady_answer (s : State) (hd : Head) (code : Nat) (st : Status) (b : ReplyBody) :
    (s.answer hd code st b).storeReady = s.storeReady := by
  simp [State.answer]

@[simp] theorem State.channels_answer (s : State) (hd : Head) (code : Nat) (st : Status) (b : ReplyBody) :
    (s.answer hd code st b).channels = s.channels := by
  simp [State.answer]

@[simp] theorem State.asRun_answer (s : State) (hd : Head) (code : Nat) (st : Status) (b : ReplyBody) :
    (s.answer hd code st b).asRun = s.asRun := by
  simp [State.answer]

@[simp] theorem State.houseFlags_answer (s : State) (hd : Head) (code : Nat) (st : Status) (b : ReplyBody) :
    (s.answer hd code st b).houseFlags = s.houseFlags := by
  simp [State.answer]

@[simp] theorem State.capture_answer (s : State) (hd : Head) (code : Nat) (st : Status) (b : ReplyBody) :
    (s.answer hd code st b).capture = s.capture := by
  simp [State.answer]

@[simp] theorem State.chan_answer (s : State) (hd : Head) (code : Nat) (st : Status) (b : ReplyBody) (j : Slot) :
    (s.answer hd code st b).chan j = s.chan j := by
  simp [State.answer]

@[simp] theorem State.live_answer (s : State) (hd : Head) (code : Nat) (st : Status) (b : ReplyBody) (j : Slot) :
    (s.answer hd code st b).live j = s.live j := by
  simp [State.answer]

@[simp] theorem State.params_answer (s : State) (hd : Head) (code : Nat) (st : Status) (b : ReplyBody) (j : Slot) :
    (s.answer hd code st b).params j = s.params j := by
  simp [State.answer]

@[simp] theorem State.pending_restartPresence (s : State) (p : Port) :
    (s.restartPresence p).pending = s.pending := by
  simp [State.restartPresence]

@[simp] theorem State.reference_restartPresence (s : State) (p : Port) :
    (s.restartPresence p).reference = s.reference := by
  simp [State.restartPresence]

@[simp] theorem State.house_restartPresence (s : State) (p : Port) :
    (s.restartPresence p).house = s.house := by
  simp [State.restartPresence]

@[simp] theorem State.storeReady_restartPresence (s : State) (p : Port) :
    (s.restartPresence p).storeReady = s.storeReady := by
  simp [State.restartPresence]

@[simp] theorem State.channels_restartPresence (s : State) (p : Port) :
    (s.restartPresence p).channels = s.channels := by
  simp [State.restartPresence]

@[simp] theorem State.asRun_restartPresence (s : State) (p : Port) :
    (s.restartPresence p).asRun = s.asRun := by
  simp [State.restartPresence]

@[simp] theorem State.houseFlags_restartPresence (s : State) (p : Port) :
    (s.restartPresence p).houseFlags = s.houseFlags := by
  simp [State.restartPresence]

@[simp] theorem State.capture_restartPresence (s : State) (p : Port) :
    (s.restartPresence p).capture = s.capture := by
  simp [State.restartPresence]

@[simp] theorem State.chan_restartPresence (s : State) (p : Port) (j : Slot) :
    (s.restartPresence p).chan j = s.chan j := by
  simp [State.restartPresence]

@[simp] theorem State.live_restartPresence (s : State) (p : Port) (j : Slot) :
    (s.restartPresence p).live j = s.live j := by
  simp [State.restartPresence]

@[simp] theorem State.params_restartPresence (s : State) (p : Port) (j : Slot) :
    (s.restartPresence p).params j = s.params j := by
  simp [State.restartPresence]

@[simp] theorem State.pending_defer (s : State) (hd : Head) (code : Nat) :
    (s.defer hd code).pending = s.pending := by
  simp [State.defer]

@[simp] theorem State.reference_defer (s : State) (hd : Head) (code : Nat) :
    (s.defer hd code).reference = s.reference := by
  simp [State.defer]

@[simp] theorem State.house_defer (s : State) (hd : Head) (code : Nat) :
    (s.defer hd code).house = s.house := by
  simp [State.defer]

@[simp] theorem State.storeReady_defer (s : State) (hd : Head) (code : Nat) :
    (s.defer hd code).storeReady = s.storeReady := by
  simp [State.defer]

@[simp] theorem State.channels_defer (s : State) (hd : Head) (code : Nat) :
    (s.defer hd code).channels = s.channels := by
  simp [State.defer]

@[simp] theorem State.asRun_defer (s : State) (hd : Head) (code : Nat) :
    (s.defer hd code).asRun = s.asRun := by
  simp [State.defer]

@[simp] theorem State.houseFlags_defer (s : State) (hd : Head) (code : Nat) :
    (s.defer hd code).houseFlags = s.houseFlags := by
  simp [State.defer]

@[simp] theorem State.capture_defer (s : State) (hd : Head) (code : Nat) :
    (s.defer hd code).capture = s.capture := by
  simp [State.defer]

@[simp] theorem State.chan_defer (s : State) (hd : Head) (code : Nat) (j : Slot) :
    (s.defer hd code).chan j = s.chan j := by
  simp [State.defer]

@[simp] theorem State.live_defer (s : State) (hd : Head) (code : Nat) (j : Slot) :
    (s.defer hd code).live j = s.live j := by
  simp [State.defer]

@[simp] theorem State.params_defer (s : State) (hd : Head) (code : Nat) (j : Slot) :
    (s.defer hd code).params j = s.params j := by
  simp [State.defer]

@[simp] theorem State.pending_presenceArrival (s : State) (p : Port) :
    (s.presenceArrival p).pending = s.pending := by
  simp [State.presenceArrival]

@[simp] theorem State.reference_presenceArrival (s : State) (p : Port) :
    (s.presenceArrival p).reference = s.reference := by
  simp [State.presenceArrival]

@[simp] theorem State.house_presenceArrival (s : State) (p : Port) :
    (s.presenceArrival p).house = s.house := by
  simp [State.presenceArrival]

@[simp] theorem State.storeReady_presenceArrival (s : State) (p : Port) :
    (s.presenceArrival p).storeReady = s.storeReady := by
  simp [State.presenceArrival]

@[simp] theorem State.channels_presenceArrival (s : State) (p : Port) :
    (s.presenceArrival p).channels = s.channels := by
  simp [State.presenceArrival]

@[simp] theorem State.asRun_presenceArrival (s : State) (p : Port) :
    (s.presenceArrival p).asRun = s.asRun := by
  simp [State.presenceArrival]

@[simp] theorem State.houseFlags_presenceArrival (s : State) (p : Port) :
    (s.presenceArrival p).houseFlags = s.houseFlags := by
  simp [State.presenceArrival]

@[simp] theorem State.capture_presenceArrival (s : State) (p : Port) :
    (s.presenceArrival p).capture = s.capture := by
  simp [State.presenceArrival]

@[simp] theorem State.chan_presenceArrival (s : State) (p : Port) (j : Slot) :
    (s.presenceArrival p).chan j = s.chan j := by
  simp [State.presenceArrival]

@[simp] theorem State.live_presenceArrival (s : State) (p : Port) (j : Slot) :
    (s.presenceArrival p).live j = s.live j := by
  simp [State.presenceArrival]

@[simp] theorem State.params_presenceArrival (s : State) (p : Port) (j : Slot) :
    (s.presenceArrival p).params j = s.params j := by
  simp [State.presenceArrival]

@[simp] theorem State.pending_forgetChannel (s : State) (i : Slot) (p : Port) :
    (s.forgetChannel i p).pending = s.pending := by
  simp [State.forgetChannel]

@[simp] theorem State.reference_forgetChannel (s : State) (i : Slot) (p : Port) :
    (s.forgetChannel i p).reference = s.reference := by
  simp [State.forgetChannel]

@[simp] theorem State.house_forgetChannel (s : State) (i : Slot) (p : Port) :
    (s.forgetChannel i p).house = s.house := by
  simp [State.forgetChannel]

@[simp] theorem State.storeReady_forgetChannel (s : State) (i : Slot) (p : Port) :
    (s.forgetChannel i p).storeReady = s.storeReady := by
  simp [State.forgetChannel]

@[simp] theorem State.channels_forgetChannel (s : State) (i : Slot) (p : Port) :
    (s.forgetChannel i p).channels = s.channels := by
  simp [State.forgetChannel]

@[simp] theorem State.asRun_forgetChannel (s : State) (i : Slot) (p : Port) :
    (s.forgetChannel i p).asRun = s.asRun := by
  simp [State.forgetChannel]

@[simp] theorem State.houseFlags_forgetChannel (s : State) (i : Slot) (p : Port) :
    (s.forgetChannel i p).houseFlags = s.houseFlags := by
  simp [State.forgetChannel]

@[simp] theorem State.capture_forgetChannel (s : State) (i : Slot) (p : Port) :
    (s.forgetChannel i p).capture = s.capture := by
  simp [State.forgetChannel]

@[simp] theorem State.chan_forgetChannel (s : State) (i : Slot) (p : Port) (j : Slot) :
    (s.forgetChannel i p).chan j = s.chan j := by
  simp [State.forgetChannel]

@[simp] theorem State.live_forgetChannel (s : State) (i : Slot) (p : Port) (j : Slot) :
    (s.forgetChannel i p).live j = s.live j := by
  simp [State.forgetChannel]

@[simp] theorem State.params_forgetChannel (s : State) (i : Slot) (p : Port) (j : Slot) :
    (s.forgetChannel i p).params j = s.params j := by
  simp [State.forgetChannel]

end Sys2Proof.Machine
end

