-- ==== Sys2Proof/Laws/Operations.lean ====
section
/-! SUPPORT. What each shared operation can do, said once: reports, as-run entries, segments, re-resolution, takeovers
and the passes over every slot. -/

namespace Sys2Proof.Machine

/-! ## Channels in service -/

@[simp] theorem onLive_of_some {i : Slot} {s : State} {l : Live} (h : s.live i = some l) (f : Live → State) :
    onLive i s f = f l := by
  simp [onLive, h]

@[simp] theorem onLive_of_none {i : Slot} {s : State} (h : s.live i = none) (f : Live → State) : onLive i s f = s := by
  simp [onLive, h]

/-- What `onLive` can do. -/
theorem onLive_cases (i : Slot) (s : State) (f : Live → State) :
    (s.live i = none ∧ onLive i s f = s) ∨ ∃ l, s.live i = some l ∧ onLive i s f = f l := by
  cases h : s.live i with
  | none => exact .inl ⟨rfl, by simp [h]⟩
  | some l => exact .inr ⟨l, rfl, by simp [h]⟩

/-- A property of the result of `onLive` follows from the two cases. -/
theorem onLive_induct {P : State → Prop} {i : Slot} {s : State} {f : Live → State} (h0 : s.live i = none → P s)
    (h1 : ∀ l, s.live i = some l → P (f l)) : P (onLive i s f) := by
  rcases onLive_cases i s f with ⟨hn, e⟩ | ⟨l, hl, e⟩
  · rw [e]; exact h0 hn
  · rw [e]; exact h1 l hl

/-- A pass over every slot keeps what each of its acts keeps. -/
theorem forSlots_induct {P : State → Prop} {f : Slot → State → State} (step : ∀ i s, P s → P (f i s)) {s : State}
    (h : P s) : P (forSlots f s) := by
  unfold forSlots
  generalize slots = is
  induction is generalizing s with
  | nil => exact h
  | cons i is ih => exact ih (step i s h)

theorem onSlot_induct {P : State → Prop} {n : Nat} {s : State} {f : Slot → State} (h0 : P s) (h1 : ∀ i, P (f i)) :
    P (onSlot n s f) := by
  unfold onSlot
  split
  · exact h1 _
  · exact h0

/-! ## Custody records -/

theorem live_setCustody (s : State) (i j : Slot) (c : Custody) :
    (s.setCustody i c).live j = if j = i then (s.live i).map (fun l => { l with custody := c }) else s.live j := by
  by_cases h : j = i
  · subst h
    cases hl : s.live j <;> simp [State.setCustody, hl, onLive]
  · cases hl : s.live i <;> simp [State.setCustody, hl, onLive, h]

/-! ## Fault reports (R194 to R197) -/

/-- The flag set that a report leaves a channel: its class added when it names the channel. -/
def reportedFlags (r : FaultReport) (j : Slot) (l : Live) : Live :=
  if r.slot = some j then { l with flags := addFlag r.cls l.flags } else l

theorem live_flagReport (s : State) (r : FaultReport) (j : Slot) :
    (s.flagReport r).live j = (s.live j).map (reportedFlags r j) := by
  unfold State.flagReport reportedFlags
  cases hr : r.slot with
  | none => cases hl : s.live j <;> simp [State.live, State.chan] <;> simp_all [State.live, State.chan]
  | some i =>
    by_cases h : j = i
    · subst h; cases hl : s.live j <;> simp [hl, onLive]
    · have hne : i ≠ j := fun e => h e.symm
      cases hl : s.live i <;> simp [hl, onLive, h, hne]

/-- A report changes, of every channel, its flag set at most. -/
theorem live_report (s : State) (r : FaultReport) (j : Slot) :
    (s.report r).live j = (s.live j).map (reportedFlags r j) := by
  have h := live_flagReport s r j
  unfold State.report
  dsimp only
  split <;> simpa [State.live, State.chan] using h

theorem flagReport_rest (s : State) (r : FaultReport) :
    (s.flagReport r).pending = s.pending ∧ (s.flagReport r).reference = s.reference ∧
    (s.flagReport r).house = s.house ∧ (s.flagReport r).storeReady = s.storeReady ∧
    (s.flagReport r).asRun = s.asRun ∧ (s.flagReport r).capture = s.capture ∧
    (∀ j, (s.flagReport r).params j = s.params j) ∧ (∀ p, (s.flagReport r).port p = s.port p) := by
  unfold State.flagReport
  cases r.slot with
  | none => exact ⟨rfl, rfl, rfl, rfl, rfl, rfl, fun _ => rfl, fun p => by cases p <;> rfl⟩
  | some i => cases hl : s.live i <;> simp [hl, onLive]

@[simp] theorem port_reasons_raiseFault (s : State) (p : Port) :
    (s.raiseFault).port p = { s.port p with reasons := { (s.port p).reasons with fault := true } } := by
  cases p <;> rfl

@[simp] theorem port_raiseCustodyChanged (s : State) (p : Port) :
    (s.raiseCustodyChanged).port p =
      { s.port p with reasons := { (s.port p).reasons with custodyChanged := true } } := by
  cases p <;> rfl

/-- What a report leaves outside the flag sets: the queue, the reference, the house, the store, the log and the
parameters are as they were, and each port is, but for its FAULT reason. -/
theorem report_rest (s : State) (r : FaultReport) :
    (s.report r).pending = s.pending ∧ (s.report r).reference = s.reference ∧ (s.report r).house = s.house ∧
    (s.report r).storeReady = s.storeReady ∧ (s.report r).asRun = s.asRun ∧
    (∀ j, (s.report r).params j = s.params j) ∧
    ∀ p, (s.report r).port p = s.port p ∨
      (s.report r).port p = { s.port p with reasons := { (s.port p).reasons with fault := true } } := by
  obtain ⟨h1, h2, h3, h4, h5, -, h7, h8⟩ := flagReport_rest s r
  unfold State.report
  dsimp only
  split
  · refine ⟨by simpa using h1, by simpa using h2, by simpa using h3, by simpa using h4, by simpa using h5,
      fun j => ?_, fun p => .inr ?_⟩
    · simpa [State.params, State.chan] using h7 j
    · rw [port_reasons_raiseFault]
      have hp : ∀ c, State.port { s.flagReport r with capture := c } p = s.port p := fun c => by
        rw [← h8 p]; cases p <;> rfl
      rw [hp]
  · refine ⟨h1, h2, h3, h4, h5, fun j => h7 j, fun p => .inl ?_⟩
    rw [← h8 p]; cases p <;> rfl

@[simp] theorem State.pending_report (s : State) (r : FaultReport) : (s.report r).pending = s.pending :=
  (report_rest s r).1
@[simp] theorem State.reference_report (s : State) (r : FaultReport) : (s.report r).reference = s.reference :=
  (report_rest s r).2.1
@[simp] theorem State.house_report (s : State) (r : FaultReport) : (s.report r).house = s.house :=
  (report_rest s r).2.2.1
@[simp] theorem State.storeReady_report (s : State) (r : FaultReport) : (s.report r).storeReady = s.storeReady :=
  (report_rest s r).2.2.2.1
@[simp] theorem State.asRun_report (s : State) (r : FaultReport) : (s.report r).asRun = s.asRun :=
  (report_rest s r).2.2.2.2.1
@[simp] theorem State.params_report (s : State) (r : FaultReport) (j : Slot) : (s.report r).params j = s.params j :=
  (report_rest s r).2.2.2.2.2.1 j

/-! ## As-run entries and segments (R163 to R172) -/

/-- What the writing of an entry leaves a channel: its latest number, and its flag set where the entry's report names
it; all else as it was. -/
theorem live_writeEntry (s : State) (i : Slot) (f : Nat) (b : EntryBody) (j : Slot) :
    (s.writeEntry i f b).live j =
      match s.asRun.nextSeq with
      | none => s.live j
      | some n => if j = i then (s.live i).map (fun l => { l with latestSeq := n }) else s.live j := by
  unfold State.writeEntry
  cases hn : s.asRun.nextSeq with
  | none => rfl
  | some n =>
    have key : (onLive i { s with asRun := s.asRun.write n ⟨n, i.val, s.service i, f, s.house.rate, b⟩ } fun l =>
        State.setLive { s with asRun := s.asRun.write n ⟨n, i.val, s.service i, f, s.house.rate, b⟩ } i
          { l with latestSeq := n }).live j =
        if j = i then (s.live i).map (fun l => { l with latestSeq := n }) else s.live j := by
      generalize hs1 : ({ s with asRun := s.asRun.write n ⟨n, i.val, s.service i, f, s.house.rate, b⟩ } : State) = s1
      have hl : ∀ k, s1.live k = s.live k := fun k => by subst hs1; rfl
      rcases onLive_cases i s1 (fun l => s1.setLive i { l with latestSeq := n }) with ⟨h0, e⟩ | ⟨l, h0, e⟩
      · rw [e, hl j]
        rw [hl i] at h0
        by_cases h : j = i
        · subst h; simp [h0]
        · simp [h]
      · rw [e]
        rw [hl i] at h0
        by_cases h : j = i
        · subst h; simp [h0]
        · simp [h, hl j]
    dsimp only
    split
    · rw [live_report, key]
      by_cases h : j = i
      · subst h; cases s.live j <;> simp [reportedFlags]
      · cases s.live j <;> simp [h, reportedFlags]
    · exact key

/-- The log after the writing of an entry. -/
theorem asRun_writeEntry (s : State) (i : Slot) (f : Nat) (b : EntryBody) :
    (s.writeEntry i f b).asRun =
      match s.asRun.nextSeq with
      | none => s.asRun.drop
      | some n => s.asRun.write n ⟨n, i.val, s.service i, f, s.house.rate, b⟩ := by
  unfold State.writeEntry
  cases hn : s.asRun.nextSeq with
  | none => rfl
  | some n =>
    dsimp only
    split
    · rw [State.asRun_report]
      exact onLive_induct (P := fun t => t.asRun = _) (fun _ => rfl) (fun _ _ => rfl)
    · exact onLive_induct (P := fun t => t.asRun = _) (fun _ => rfl) (fun _ _ => rfl)

/-- The rest of the state is as it was, but for the FAULT reason and the capture record of a full log's report. -/
theorem writeEntry_rest (s : State) (i : Slot) (f : Nat) (b : EntryBody) :
    (s.writeEntry i f b).pending = s.pending ∧ (s.writeEntry i f b).reference = s.reference ∧
    (s.writeEntry i f b).house = s.house ∧ (s.writeEntry i f b).storeReady = s.storeReady ∧
    (∀ j, (s.writeEntry i f b).params j = s.params j) ∧
    ∀ p, (s.writeEntry i f b).port p = s.port p ∨
      (s.writeEntry i f b).port p = { s.port p with reasons := { (s.port p).reasons with fault := true } } := by
  unfold State.writeEntry
  cases hn : s.asRun.nextSeq with
  | none => exact ⟨rfl, rfl, rfl, rfl, fun _ => rfl, fun p => .inl (by cases p <;> rfl)⟩
  | some n =>
    dsimp only
    generalize hs1 : ({ s with asRun := s.asRun.write n ⟨n, i.val, s.service i, f, s.house.rate, b⟩ } : State) = s1
    have e1 : s1.pending = s.pending ∧ s1.reference = s.reference ∧ s1.house = s.house ∧
        s1.storeReady = s.storeReady ∧ (∀ j, s1.params j = s.params j) ∧ ∀ p, s1.port p = s.port p := by
      subst hs1; exact ⟨rfl, rfl, rfl, rfl, fun _ => rfl, fun p => by cases p <;> rfl⟩
    have e2 : ∀ s2, s2 = (onLive i s1 fun l => s1.setLive i { l with latestSeq := n }) →
        s2.pending = s.pending ∧ s2.reference = s.reference ∧ s2.house = s.house ∧
        s2.storeReady = s.storeReady ∧ (∀ j, s2.params j = s.params j) ∧ ∀ p, s2.port p = s.port p := by
      rintro s2 rfl
      refine onLive_induct (P := fun t => t.pending = s.pending ∧ t.reference = s.reference ∧ t.house = s.house ∧
        t.storeReady = s.storeReady ∧ (∀ j, t.params j = s.params j) ∧ ∀ p, t.port p = s.port p)
        (fun _ => e1) (fun l _ => ?_)
      simpa using e1
    obtain ⟨a1, a2, a3, a4, a5, a6⟩ := e2 _ rfl
    split
    · obtain ⟨b1, b2, b3, b4, -, b6, b7⟩ := report_rest (onLive i s1 fun l => s1.setLive i { l with latestSeq := n })
        ⟨.lineError, none, none, some f, .line .logFull⟩
      refine ⟨b1.trans a1, b2.trans a2, b3.trans a3, b4.trans a4, fun j => (b6 j).trans (a5 j), fun p => ?_⟩
      rcases b7 p with h | h
      · exact .inl (h.trans (a6 p))
      · exact .inr (by rw [h, a6 p])
    · exact ⟨a1, a2, a3, a4, a5, fun p => .inl (a6 p)⟩

/-! ## Re-resolution (R40, R41) -/

@[simp] theorem timelineChanged_rest (l : Live) :
    l.timelineChanged.events = l.events ∧ l.timelineChanged.anchor = l.anchor ∧
    l.timelineChanged.timeline = l.timeline ∧ l.timelineChanged.hold = l.hold ∧
    l.timelineChanged.batch = l.batch ∧ l.timelineChanged.segment = l.segment ∧
    l.timelineChanged.latestSeq = l.latestSeq ∧ l.timelineChanged.flags = l.flags ∧
    l.timelineChanged.mirrorRev = l.mirrorRev ∧ l.timelineChanged.sourceRev = l.sourceRev ∧
    l.timelineChanged.stale = l.stale ∧ l.timelineChanged.protectedSet = l.protectedSet ∧
    l.timelineChanged.followed = l.followed ∧ l.timelineChanged.timelineRev = l.timelineRev ∧
    l.timelineChanged.completion = l.completion := by
  unfold Live.timelineChanged
  split
  · split
    · simp
    · dsimp only
      split
      · split <;> simp [Live.setTakeover]
      · simp
  · simp

/-- A change of timeline leaves a custody record as it was, but for the takeover's cue and the cue counter. -/
theorem timelineChanged_custody (l : Live) :
    ∃ n t, l.timelineChanged.custody = { l.custody with cueCounter := n, takeover := t } ∧
      (l.custody.state ≠ .taking → n = l.custody.cueCounter ∧ t = l.custody.takeover) ∧
      t.map (fun t => { t with cue := (⟨0, 0, .issued, 0, none⟩ : Cue) }) =
        l.custody.takeover.map (fun t => { t with cue := (⟨0, 0, .issued, 0, none⟩ : Cue) }) := by
  unfold Live.timelineChanged
  split
  · rename_i t hs ht
    split
    · exact ⟨_, _, rfl, fun h => absurd hs h, rfl⟩
    · dsimp only
      split
      · split
        · exact ⟨_, _, rfl, fun h => absurd hs h, rfl⟩
        · exact ⟨_, _, rfl, fun h => absurd hs h, by simp [ht]⟩
      · exact ⟨_, _, rfl, fun h => absurd hs h, by simp [ht]⟩
  · exact ⟨_, _, rfl, fun _ => ⟨rfl, rfl⟩, rfl⟩

/-- A re-resolved channel holds the resolution of its list, anchor and hold (R40). -/
theorem reResolve_timeline (l : Live) (p : ChannelParams) (h : Option Nat) :
    (l.reResolve p h).timeline = l.resolveNow ∧ (l.reResolve p h).resolveNow = l.resolveNow := by
  have := timelineChanged_rest
  constructor
  · simp [Live.reResolve, Live.redraw]
  · unfold Live.resolveNow Live.reResolve
    simp [Live.redraw]

/-- What a re-resolution keeps. -/
theorem reResolve_rest (l : Live) (p : ChannelParams) (h : Option Nat) :
    (l.reResolve p h).events = l.events ∧ (l.reResolve p h).anchor = l.anchor ∧ (l.reResolve p h).hold = l.hold ∧
    (l.reResolve p h).batch = l.batch ∧ (l.reResolve p h).segment = l.segment ∧
    (l.reResolve p h).latestSeq = l.latestSeq ∧ (l.reResolve p h).flags = l.flags ∧
    (l.reResolve p h).mirrorRev = l.mirrorRev ∧ (l.reResolve p h).sourceRev = l.sourceRev ∧
    (l.reResolve p h).stale = l.stale ∧ (l.reResolve p h).completion = l.completion := by
  simp [Live.reResolve, Live.redraw]

/-! ## Readings of the lease and of time -/

@[simp] theorem houseFrame_of_unset {s : State} (h : s.reference.refState = .unset) : s.houseFrame = none := by
  simp [State.houseFrame, h]

@[simp] theorem houseFrame_of_set {s : State} (h : s.reference.refState ≠ .unset) :
    s.houseFrame = some s.reference.h := by
  simp [State.houseFrame, h]

/-- A port's OPEN batch is the channel's batch, is that port's, and is OPEN (R83). -/
theorem openBatchOf_eq_some {l : Live} {p : Port} {b : Batch} (h : l.openBatchOf p = some b) :
    l.batch = some b ∧ b.port = p ∧ ∃ n, b.phase = .opened n := by
  unfold Live.openBatchOf at h
  split at h
  · rename_i b' hb
    split at h
    · rename_i n hn
      split at h
      · simp only [Option.some.injEq] at h
        subst h
        exact ⟨hb, ‹_›, n, hn⟩
      · simp at h
    · simp at h
  · simp at h

/-- A buffer holds at most 64 entries, the newest, in order (R88). -/
theorem holdNewest_length (es : List Entry) : (holdNewest es).1.length = min es.length Config.bufferEntries := by
  simp [holdNewest]; omega

/-! ## READ AS-RUN's examination (R175) -/

/-- What an examination returns: the first matching entries up to the count, and the number of the last examined, which
is the last returned where the count was reached and the last of all where it was not. -/
theorem examine_eq (ok : LogEntry → Bool) (n : Nat) (last : Option Nat) (es : List LogEntry) :
    (examine ok n last es).1 = (es.filter ok).take n ∧
    (examine ok n last es).2 = (if n = 0 then last
      else if ((es.filter ok).take n).length = n then ((es.filter ok).take n).getLast?.map (·.seq)
      else (es.getLast?.map (·.seq)).or last) := by
  induction es generalizing n last with
  | nil => cases n <;> simp [examine]
  | cons e es ih =>
    cases n with
    | zero => simp [examine]
    | succ n =>
      unfold examine
      by_cases h : ok e = true
      · simp only [h, if_true, List.filter_cons_of_pos, List.take_succ_cons, List.length_cons]
        refine ⟨by rw [(ih n (some e.seq)).1], ?_⟩
        rw [(ih n (some e.seq)).2]
        by_cases hn : n = 0
        · subst hn; simp
        · simp only [hn, if_false, Nat.add_right_cancel_iff, Nat.succ_ne_zero]
          split
          · rename_i hl
            cases hh : (es.filter ok).take n with
            | nil => exact absurd (by rw [hh] at hl; exact hl.symm) hn
            | cons a t => simp [List.getLast?_cons_cons]
          · cases es with
            | nil => simp
            | cons b bs =>
              simp only [List.getLast?_cons_cons]
              cases hg : (b :: bs).getLast? <;> simp_all
      · have h' : ok e = false := by simpa using h
        simp only [h', Bool.false_eq_true, if_false, not_false_eq_true, List.filter_cons_of_neg, Nat.succ_ne_zero]
        rw [(ih (n + 1) (some e.seq)).1, (ih (n + 1) (some e.seq)).2]
        simp only [Nat.succ_ne_zero, if_false, true_and]
        split
        · rfl
        · cases es with
          | nil => simp
          | cons b bs =>
            simp only [List.getLast?_cons_cons]
            cases hg : (b :: bs).getLast? <;> simp_all

end Sys2Proof.Machine
end

