-- ==== Sys2Proof/Laws/Commits.lean ====
section
/-! SUPPORT. What a completion can do, step by step: the list a channel holds while one is under way, retirement, the
cue's law at a re-resolution, and the cases of one step. -/

namespace Sys2Proof.Machine

/-! ## The stored list -/

@[simp] theorem storedEvents_of_none {l : Live} (h : l.completion = none) : l.storedEvents = l.events := by
  simp [Live.storedEvents, h]

@[simp] theorem storedEvents_of_stored {l : Live} {c : Completion} {es : List EventRec} (h : l.completion = some c)
    (hs : c.stage = .stored es) : l.storedEvents = es := by
  simp [Live.storedEvents, h, hs]

@[simp] theorem mapRecords_events (l : Live) (f : List EventRec → List EventRec) :
    (l.mapRecords f).events = f l.events := rfl

@[simp] theorem mapRecords_anchor (l : Live) (f : List EventRec → List EventRec) :
    (l.mapRecords f).anchor = l.anchor := rfl

@[simp] theorem mapRecords_batch (l : Live) (f : List EventRec → List EventRec) : (l.mapRecords f).batch = l.batch := rfl

@[simp] theorem mapRecords_custody (l : Live) (f : List EventRec → List EventRec) :
    (l.mapRecords f).custody = l.custody := rfl

/-- A change of records reaches the stored list as it reaches the other. -/
theorem mapRecords_storedEvents (l : Live) (f : List EventRec → List EventRec) :
    (l.mapRecords f).storedEvents = f l.storedEvents := by
  cases hc : l.completion with
  | none => simp [Live.mapRecords, Live.storedEvents, hc]
  | some c => cases hs : c.stage <;> simp [Live.mapRecords, Live.storedEvents, hc, hs]

@[simp] theorem setHoldEnd_ids (id : Nat) (he : Option Nat) (es : List EventRec) :
    (setHoldEnd id he es).map (·.id) = es.map (·.id) := by
  simp only [setHoldEnd, List.map_map]
  refine List.map_congr_left fun e _ => ?_
  simp only [Function.comp_apply]
  split <;> rfl

/-! ## Retirement (R70, R72) -/

/-- What retirement does: the due events leave the head, the anchor is the end of the last of them, and the rest is
resolved from there; with none due, nothing. -/
theorem retire_eq (l : Live) (p : ChannelParams) (h : Nat) :
    (l.retire p h).events = l.events.drop (dueEvents l p.retention h).length ∧
    (l.retire p h).anchor = (match (dueEvents l p.retention h).getLast? with | some c => c.2.stop | none => l.anchor) ∧
    (dueEvents l p.retention h = [] → l.retire p h = l) ∧
    (dueEvents l p.retention h ≠ [] → (l.retire p h).timeline = (l.retire p h).resolveNow) := by
  unfold Live.retire
  dsimp only
  cases hd : (dueEvents l p.retention h).getLast? with
  | none => simp [List.getLast?_eq_none_iff.mp hd]
  | some c =>
    have hne : dueEvents l p.retention h ≠ [] := by
      intro e
      simp [e] at hd
    have hr := reResolve_rest { l with
      events := l.events.drop (dueEvents l p.retention h).length, anchor := c.2.stop } p (some h)
    have ht := reResolve_timeline { l with
      events := l.events.drop (dueEvents l p.retention h).length, anchor := c.2.stop } p (some h)
    exact ⟨hr.1, hr.2.1, fun e => absurd e hne, fun _ => ht.1.trans ht.2.symm⟩

/-- What retirement keeps. -/
theorem retire_rest (l : Live) (p : ChannelParams) (h : Nat) :
    (l.retire p h).hold = l.hold ∧ (l.retire p h).batch = l.batch ∧ (l.retire p h).completion = l.completion ∧
    (l.retire p h).mirrorRev = l.mirrorRev ∧ (l.retire p h).sourceRev = l.sourceRev ∧
    (l.retire p h).stale = l.stale ∧ (l.retire p h).flags = l.flags ∧ (l.retire p h).segment = l.segment ∧
    (l.retire p h).latestSeq = l.latestSeq := by
  unfold Live.retire
  dsimp only
  split
  · simp
  · rename_i c _
    have hr := reResolve_rest { l with
      events := l.events.drop (dueEvents l p.retention h).length, anchor := c.2.stop } p (some h)
    exact ⟨hr.2.2.1, hr.2.2.2.1, hr.2.2.2.2.2.2.2.2.2.2, hr.2.2.2.2.2.2.2.1, hr.2.2.2.2.2.2.2.2.1,
      hr.2.2.2.2.2.2.2.2.2.1, hr.2.2.2.2.2.2.1, hr.2.2.2.2.1, hr.2.2.2.2.2.1⟩

/-! ## The cue at a re-resolution (R137) -/

/-- A cue with contents is, after word of a changed timeline, what the cursor at its switch frame makes of it. -/
theorem timelineChanged_cue {l : Live} {k : Takeover} (hs : l.custody.state = .taking)
    (hk : l.timelineChanged.custody.takeover = some k) (hb : k.cue.body ≠ none) :
    k.cue.body = some (l.timelineChanged.cueBody k.cue.switchFrame) := by
  have hc : ∀ t, l.timelineChanged.cueBody t = l.cueBody t := fun t => by simp [Live.cueBody, Live.cursor]
  rw [hc]
  revert hk
  unfold Live.timelineChanged
  rw [hs]
  cases ht : l.custody.takeover with
  | none => simp [ht]
  | some t =>
    dsimp only
    cases ho : t.cue.body with
    | none =>
      intro hk
      have e : t = k := by simpa [ht] using hk
      subst e
      exact absurd ho hb
    | some old =>
      dsimp only
      split
      · split
        · rename_i hn
          intro hk
          have e : t = k := by simpa [ht] using hk
          subst e
          rw [ho, hn]
        · intro hk
          simp only [Live.setTakeover, Option.some.injEq] at hk
          subst hk
          rfl
      · intro hk
        simp only [Option.some.injEq] at hk
        subst hk
        rfl

/-! ## The trial list (R98, R101) -/

theorem hasId_iff (id : Nat) (es : List EventRec) : hasId id es = true ↔ ∃ e ∈ es, e.id = id := by simp [hasId]

/-- A passing INSERT stands immediately after the named event (R98). -/
theorem insertAfter_eq (id : Nat) (r e : EventRec) (pre post : List EventRec) (he : e.id = id)
    (hp : ∀ x ∈ pre, x.id ≠ id) : insertAfter id r (pre ++ e :: post) = pre ++ e :: r :: post := by
  induction pre with
  | nil => simp [insertAfter, he]
  | cons a pre ih => simp [insertAfter, hp a (by simp), ih fun x hx => hp x (by simp [hx])]

/-- A staged record is read without a hold end (R30). -/
theorem readRecord_holdEnd {rate : HouseRate} {rec : StagedRecord} {r : EventRec} {adj : Bool}
    (h : readRecord rate rec = some (r, adj)) : r.holdEnd = none := by
  cases rec with
  | unreadable => simp [readRecord] at h
  | fields f =>
    simp only [readRecord] at h
    split at h
    · split at h
      · simp only [Option.some.injEq, Prod.mk.injEq] at h
        rw [← h.1]
      · simp at h
    · simp at h

/-- Entries that all pass build the trial that taking them one by one builds. -/
theorem runEntries_ok (f : Trial → Entry → Except Status Trial) (k : Nat) (t0 t : Trial) (es : List Entry)
    (h : es.foldlM f t0 = .ok t) : runEntries f k t0 es = .ok t := by
  induction es generalizing k t0 with
  | nil => simpa [runEntries, List.foldlM, pure, Except.pure] using h
  | cons e es ih =>
    simp only [List.foldlM_cons, bind, Except.bind] at h
    unfold runEntries
    cases hf : f t0 e with
    | error _ => simp [hf] at h
    | ok t1 => simp only [hf] at h; exact ih _ _ h

/-- The first entry that fails, on the trial that those before it have left, is the outcome (R98). -/
theorem runEntries_error (f : Trial → Entry → Except Status Trial) (k : Nat) (t0 t : Trial) (pre post : List Entry)
    (e : Entry) (st : Status) (h : pre.foldlM f t0 = .ok t) (he : f t e = .error st) :
    runEntries f k t0 (pre ++ e :: post) = .error ⟨st, .entry (k + pre.length) (entryKind e) (entryId e), t.dropped⟩ := by
  induction pre generalizing k t0 with
  | nil =>
    simp only [List.foldlM_nil, pure, Except.pure, Except.ok.injEq] at h
    subst h
    simp [runEntries, he]
  | cons a pre ih =>
    simp only [List.foldlM_cons, bind, Except.bind] at h
    rw [List.cons_append, runEntries]
    cases hf : f t0 a with
    | error _ => simp [hf] at h
    | ok t1 =>
      simp only [hf] at h
      dsimp only
      rw [ih _ _ h, List.length_cons, Nat.add_right_comm, Nat.add_assoc]

/-! ## One step of a completion -/

/-- What one step of a completion can be: none without a commit in flight, else the step its stage names. -/
theorem commitStep_cases (s : State) (i : Slot) :
    s.commitStep i = s ∨ ∃ l b, s.live i = some l ∧ l.batch = some b ∧ l.inFlight = true ∧
      ((l.completion = none ∧ s.commitStep i = s.beginCompletion i l b) ∨
      ∃ c, l.completion = some c ∧
        ((∃ es, c.stage = .stored es ∧ s.commitStep i = s.setLive i (l.resolveStored (s.params i) s.houseFrame c es)) ∨
        (c.stage = .resolved ∧ s.commitStep i = s.setLive i (l.retireStage (s.params i) s.houseFrame c)) ∨
        (c.stage = .retired ∧ s.commitStep i = s.endCompletion i l b c))) := by
  unfold State.commitStep
  rcases onLive_cases i s _ with ⟨_, e⟩ | ⟨l, hl, e⟩
  · exact .inl e
  · rw [e]
    cases hb : l.batch with
    | none => exact .inl rfl
    | some b =>
      cases hp : b.phase with
      | opened n => exact .inl (by simp [hp])
      | _ => exact .inr ⟨l, b, hl, hb, by simp [Live.inFlight, hb, hp], by
          cases hc : l.completion with
          | none => exact .inl ⟨rfl, by simp [hp]⟩
          | some c => exact .inr ⟨c, rfl, by cases hs : c.stage <;> simp [hp, hs]⟩⟩

/-- The step of a commit in flight, by its stage. -/
theorem commitStep_of_inFlight {s : State} {i : Slot} {l : Live} {b : Batch} {d g : Option Nat} (hl : s.live i = some l)
    (hb : l.batch = some b) (hp : b.phase = .sealed d g) :
    s.commitStep i = match l.completion with
      | none => s.beginCompletion i l b
      | some c => match c.stage with
        | .stored es => s.setLive i (l.resolveStored (s.params i) s.houseFrame c es)
        | .resolved => s.setLive i (l.retireStage (s.params i) s.houseFrame c)
        | .retired => s.endCompletion i l b c := by
  rw [State.commitStep, onLive_of_some hl]
  cases l.completion with
  | none => simp [hb, hp]
  | some c => cases hs : c.stage <;> simp [hb, hp, hs]

/-- Without a commit in flight a step of a completion does nothing. -/
theorem commitStep_of_idle {s : State} {i : Slot} (h : ∀ l, s.live i = some l → l.inFlight = false) :
    s.commitStep i = s := by
  rcases commitStep_cases s i with e | ⟨l, b, hl, _, hf, _⟩
  · exact e
  · rw [h l hl] at hf
    cases hf

/-- The stored list installed: the events, the raised mirror revision and the resolution; the batch stays (R103). -/
theorem resolveStored_eq (l : Live) (p : ChannelParams) (h : Option Nat) (c : Completion) (es : List EventRec) :
    (l.resolveStored p h c es).events = es ∧
    (l.resolveStored p h c es).timeline = resolve es l.anchor (l.hold.map (·.eventId)) ∧
    (l.resolveStored p h c es).mirrorRev = c.revBefore + 1 ∧ (l.resolveStored p h c es).batch = l.batch ∧
    (l.resolveStored p h c es).hold = l.hold ∧ (l.resolveStored p h c es).sourceRev = l.sourceRev ∧
    (l.resolveStored p h c es).stale = l.stale ∧
    (l.resolveStored p h c es).completion = some { c with stage := .resolved } := by
  simp [Live.resolveStored, Live.reResolve, Live.redraw, Live.resolveNow]

end Sys2Proof.Machine
end

