-- ==== Sys2Proof/Laws/Custody.lean ====
section
/-! SUPPORT. What the acts on the log, the entry to TAKING and the evaluation of a channel can do, said once. -/

namespace Sys2Proof.Machine

/-! ## Acts on the log for one channel (R163 to R172) -/

/-- `t` comes from `s` by writing entries and moving the segment of slot `i` alone: of that channel the segment and the
latest number may differ, of every port the FAULT reason, and else only the log, the house flag set and the capture
record. -/
structure LogActs (i : Slot) (s t : State) : Prop where
  system : SystemKept s t
  params : ∀ j, t.params j = s.params j
  others : ∀ j, j ≠ i → t.live j = s.live j
  idle : s.live i = none → t.live i = none
  channel : ∀ l, s.live i = some l → ∃ g n, t.live i = some { l with segment := g, latestSeq := n }
  ports : ∀ p, t.port p = s.port p ∨ t.port p = { s.port p with reasons := { (s.port p).reasons with fault := true } }

theorem LogActs.refl (i : Slot) (s : State) : LogActs i s s :=
  ⟨⟨rfl, rfl, rfl, rfl⟩, fun _ => rfl, fun _ _ => rfl, fun h => h, fun l h => ⟨l.segment, l.latestSeq, h⟩, fun _ => .inl rfl⟩

theorem LogActs.trans {i : Slot} {s t u : State} (h : LogActs i s t) (k : LogActs i t u) : LogActs i s u where
  system := ⟨k.system.1.trans h.system.1, k.system.2.1.trans h.system.2.1, k.system.2.2.1.trans h.system.2.2.1,
    k.system.2.2.2.trans h.system.2.2.2⟩
  params j := (k.params j).trans (h.params j)
  others j hj := (k.others j hj).trans (h.others j hj)
  idle hs := k.idle (h.idle hs)
  channel l hl := by
    obtain ⟨g, n, e⟩ := h.channel l hl
    obtain ⟨g', n', e'⟩ := k.channel _ e
    exact ⟨g', n', e'⟩
  ports p := by
    rcases h.ports p with e | e <;> rcases k.ports p with e' | e'
    · exact .inl (e'.trans e)
    · exact .inr (by rw [e', e])
    · exact .inr (e'.trans e)
    · exact .inr (by rw [e', e])

theorem logActs_writeEntry (s : State) (i : Slot) (f : Nat) (b : EntryBody) : LogActs i s (s.writeEntry i f b) := by
  obtain ⟨h1, h2, h3, h4, h5, h6⟩ := writeEntry_rest s i f b
  refine ⟨⟨h2, h3, h4, h1⟩, h5, fun j hj => ?_, fun h => ?_, fun l h => ?_, h6⟩
  · rw [live_writeEntry]; split <;> simp [hj]
  · rw [live_writeEntry]; split <;> simp [h]
  · rw [live_writeEntry]
    split
    · exact ⟨l.segment, l.latestSeq, h⟩
    · rename_i n _
      exact ⟨l.segment, n, by simp [h]⟩

theorem logActs_setSegment (s : State) (i : Slot) (g : Option Segment) : LogActs i s (s.setSegment i g) := by
  rcases onLive_cases i s (fun l => s.setLive i { l with segment := g }) with ⟨h, e⟩ | ⟨l, h, e⟩
  · rw [State.setSegment, e]; exact LogActs.refl i s
  · rw [State.setSegment, e]
    refine ⟨by simp [SystemKept], by simp, fun j hj => by simp [hj], fun h' => by simp [h] at h', fun m hm => ?_,
      fun p => .inl (by simp)⟩
    rw [h] at hm; cases hm
    exact ⟨g, l.latestSeq, by simp⟩

theorem logActs_closeSegment (s : State) (i : Slot) (f : Nat) : LogActs i s (s.closeSegment i f) := by
  unfold State.closeSegment
  refine onLive_induct (P := LogActs i s) (fun _ => LogActs.refl i s) (fun l _ => ?_)
  split
  · exact LogActs.refl i s
  · dsimp only
    split
    · exact (logActs_setSegment s i none).trans (logActs_writeEntry _ i f _)
    · exact logActs_setSegment s i none

/-- A close leaves no segment open (R167). -/
theorem closeSegment_segment {s : State} {i : Slot} {l : Live} {f : Nat} (h : (s.closeSegment i f).live i = some l) :
    l.segment = none := by
  unfold State.closeSegment at h
  cases hs : s.live i with
  | none => simp [hs] at h
  | some m =>
    rw [onLive_of_some hs] at h
    split at h
    · rename_i e; rw [hs] at h; cases h; exact e
    · have hseg : (s.setSegment i none).live i = some { m with segment := none } := by
        simp [State.setSegment, hs]
      dsimp only at h
      split at h
      · rw [live_writeEntry] at h
        split at h
        · rw [hseg] at h; cases h; rfl
        · simp [hseg] at h; rw [← h]
      · rw [hseg] at h; cases h; rfl

theorem logActs_startNotice (s : State) (i : Slot) (id f o : Nat) (out : Output) :
    LogActs i s (s.startNotice i id f o out) := by
  unfold State.startNotice
  split
  · exact LogActs.refl i s
  · exact (logActs_closeSegment s i f).trans (logActs_setSegment _ i _)

theorem logActs_endNotice (s : State) (i : Slot) (id f : Nat) : LogActs i s (s.endNotice i id f) := by
  unfold State.endNotice
  split
  · exact logActs_closeSegment s i f
  · exact LogActs.refl i s

theorem logActs_skipNotice (s : State) (i : Slot) (id f : Nat) : LogActs i s (s.skipNotice i id f) :=
  logActs_writeEntry s i f _

/-- The notices of an arrival act on the log alone (R67). -/
theorem logActs_notices (s : State) (i : Slot) (l : Live) (followed : Option Cursor) (cur : Cursor) (h : Nat) :
    LogActs i s (s.notices i l followed cur h) := by
  have skips : ∀ (cs : List (EventRec × Resolved)) (u : State), LogActs i s u →
      LogActs i s (cs.foldl (fun s c => s.skipNotice i c.1.id h) u) := by
    intro cs
    induction cs with
    | nil => exact fun _ hu => hu
    | cons c cs ih => exact fun u hu => ih _ (hu.trans (logActs_skipNotice u i _ h))
  have first : LogActs i s (match followed with
      | some (.event e) => if cur.onEvent e.id then s else s.endNotice i e.id h
      | _ => s) := by
    split
    · split
      · exact LogActs.refl i s
      · exact logActs_endNotice s i _ h
    · exact LogActs.refl i s
  have last : ∀ u, LogActs i s u → ∀ b : Bool, LogActs i s (match cur with
      | .event e => if b then u else u.startNotice i e.id h e.lateness l.custody.output
      | _ => u) := by
    intro u hu b
    cases b <;> split
    · exact hu.trans (logActs_startNotice u i _ h _ _)
    · exact hu
    · exact hu
    · exact hu
  unfold State.notices
  dsimp only
  cases cur with
  | event e => exact last _ (skips _ _ first) _
  | noTimeline => exact skips _ _ first
  | gap _ _ _ => exact skips _ _ first
  | before _ _ _ => exact skips _ _ first
  | ended _ _ => exact skips _ _ first

/-- A switch record acts on the log alone (R169). -/
theorem logActs_switchRecord (s : State) (i : Slot) (a b : Output) (r : SwitchReason) (cue : Option Nat) (f : Nat)
    (c : Cursor) : LogActs i s (s.switchRecord i a b r cue f c) := by
  unfold State.switchRecord
  dsimp only
  have h1 : LogActs i s (if isDrOutput a && decide (a ≠ b) then s.closeSegment i f else s) := by
    split
    · exact logActs_closeSegment s i f
    · exact LogActs.refl i s
  have h2 := h1.trans (logActs_writeEntry _ i f (.switch a b r cue))
  split
  · split
    · exact h2.trans (logActs_setSegment _ i _)
    · exact h2
  · exact h2

/-- A switch record between equal outputs writes its entry and moves no segment (R169). -/
theorem switchRecord_same (s : State) (i : Slot) (a : Output) (r : SwitchReason) (cue : Option Nat) (f : Nat) (c : Cursor) :
    s.switchRecord i a a r cue f c = s.writeEntry i f (.switch a a r cue) := by
  simp [State.switchRecord]

/-! ## Entry to TAKING (R119) -/

/-- The switch frame of a takeover's first cue. -/
def firstSwitchFrame (s : State) (i : Slot) (l : Live) : TakeMode → Nat
  | .now => s.reference.h + (s.params i).cueLead
  | .junction => junctionFrame l (s.params i) s.reference.h

/-- What entry to TAKING does to its channel. -/
theorem enterTaking_channel {s : State} {i : Slot} {l : Live} (h : s.live i = some l) (d : DrPort) (o : Origin) (m : TakeMode) :
    (s.enterTaking i d o m).live i = some { l with custody := { l.custody with
      state := .taking
      cueCounter := nextCueNumber l.custody.cueCounter
      takeover := some { prevState := l.custody.state, prevOutput := l.custody.output, origin := o, mode := m
                         firstChoice := match o with
                           | .policy => (s.params i).preferred
                           | _ => d
                         target := d, attempt := 1, cue := l.freshCue (firstSwitchFrame s i l m) }
      switchDue := false } } := by
  unfold State.enterTaking
  rw [onLive_of_some h]
  dsimp only
  rw [State.live_raiseCustodyChanged, State.live_setLive_self]
  cases m <;> rfl

/-- What entry to TAKING leaves: the other channels, and everything but CUSTODY_CHANGED at the ports. -/
theorem enterTaking_rest (s : State) (i : Slot) (d : DrPort) (o : Origin) (m : TakeMode) :
    SystemKept s (s.enterTaking i d o m) ∧ (s.enterTaking i d o m).asRun = s.asRun ∧
    (s.enterTaking i d o m).houseFlags = s.houseFlags ∧ (s.enterTaking i d o m).capture = s.capture ∧
    (∀ j, (s.enterTaking i d o m).params j = s.params j) ∧ OthersKept i s (s.enterTaking i d o m) ∧
    (s.live i = none → s.enterTaking i d o m = s) ∧
    ∀ l, s.live i = some l → OnlyCustodyRaised s (s.enterTaking i d o m) ∧ PortsKept s (s.enterTaking i d o m) := by
  unfold State.enterTaking
  cases h : s.live i with
  | none =>
    rw [onLive_of_none h]
    exact ⟨⟨rfl, rfl, rfl, rfl⟩, rfl, rfl, rfl, fun _ => rfl, fun _ _ => rfl, fun _ => rfl, fun _ e => by cases e⟩
  | some l =>
    rw [onLive_of_some h]
    refine ⟨by simp [SystemKept], by simp, by simp, by simp, fun j => by simp, fun j hj => ?_, fun e => (by cases e),
      fun m _ => ⟨fun q => by simp, fun q => by simp⟩⟩
    simp only [State.chan_raiseCustodyChanged]
    exact State.chan_setChan_ne s _ hj

/-! ## Evaluation (R117, R118) -/

/-- What carrying out an action can be: nothing, the notice, or an entry to TAKING in a set reference toward a PRESENT
port. -/
theorem carryOut_cases (s : State) (i : Slot) (a : PolicyAction) :
    s.carryOut i a = (s, .none) ∨ (∃ o, s.carryOut i a = (s.raisePolicyNotice, o) ∧ o ≠ .takeStarted) ∨
    ∃ d m, s.carryOut i a = (s.enterTaking i d .policy m, .takeStarted) ∧ s.reference.refState ≠ .unset ∧
      s.policyTarget i = some d := by
  have take : ∀ m, s.carryOut i a = s.policyTake i m →
      (∃ o, s.carryOut i a = (s.raisePolicyNotice, o) ∧ o ≠ .takeStarted) ∨
      ∃ d m, s.carryOut i a = (s.enterTaking i d .policy m, .takeStarted) ∧ s.reference.refState ≠ .unset ∧
        s.policyTarget i = some d := by
    intro m e
    rw [e]
    unfold State.policyTake
    split
    · exact .inl ⟨_, rfl, by decide⟩
    · rename_i hu
      cases hp : s.policyTarget i with
      | none => exact .inl ⟨_, rfl, by decide⟩
      | some d => exact .inr ⟨d, m, rfl, hu, rfl⟩
  cases a with
  | none => exact .inl rfl
  | notify => exact .inr (.inl ⟨_, rfl, by decide⟩)
  | takeNow => exact .inr (take .now rfl)
  | takeAtJunction => exact .inr (take .junction rfl)

/-- The index of R116 is that of the statements. -/
theorem policyIndex_eq (c : Custody) : policyIndex c = c.index := by
  unfold policyIndex Custody.index
  cases c.m <;> cases c.s <;> cases c.l <;> cases c.a <;> rfl

/-- Two custody records have one index exactly where they have the same conditions. -/
theorem index_eq_iff (c d : Custody) : c.index = d.index ↔ c.m = d.m ∧ c.s = d.s ∧ c.l = d.l ∧ c.a = d.a := by
  unfold Custody.index
  cases c.m <;> cases c.s <;> cases c.l <;> cases c.a <;> cases d.m <;> cases d.s <;> cases d.l <;> cases d.a <;> decide

/-- What carrying out an action does to its channel: at most its takeover, under the outcome that says so. -/
theorem carryOut_channel {s : State} {i : Slot} {l : Live} (h : s.live i = some l) (a : PolicyAction) :
    ∃ l1, (s.carryOut i a).1.live i = some l1 ∧
      l1.custody = { l.custody with
        state := if (s.carryOut i a).2 = .takeStarted then .taking else l.custody.state
        cueCounter := l1.custody.cueCounter, takeover := l1.custody.takeover, switchDue := l1.custody.switchDue } := by
  rcases carryOut_cases s i a with e | ⟨o, e, ho⟩ | ⟨d, m, e, _⟩ <;> rw [e]
  · exact ⟨l, h, by simp⟩
  · exact ⟨l, by simpa using h, by simp [ho]⟩
  · exact ⟨_, enterTaking_channel h d .policy m, by simp⟩

/-- What an evaluation of a channel in MAIN or SAFE does to its custody: at most its takeover, and the record of it. -/
theorem evaluate_channel {s : State} {i : Slot} {l : Live} (h : s.live i = some l)
    (hr : l.custody.state = .main ∨ l.custody.state = .safe) :
    ∃ l1 out, (s.evaluate i).1.live i = some l1 ∧ (s.evaluate i).2 = some out ∧
      l1.custody = { l.custody with
        state := if out = .takeStarted then .taking else l.custody.state
        lastEval := some ⟨s.houseFrame, l.custody.index, (s.params i).policy.getD l.custody.index .none, out⟩
        cueCounter := l1.custody.cueCounter, takeover := l1.custody.takeover, switchDue := l1.custody.switchDue } := by
  obtain ⟨l1, e1, e2⟩ := carryOut_channel h ((s.params i).policy.getD l.custody.index .none)
  have hv : s.evaluate i = (onLive i (s.carryOut i ((s.params i).policy.getD l.custody.index .none)).1 fun l1 =>
      (s.carryOut i ((s.params i).policy.getD l.custody.index .none)).1.setCustody i { l1.custody with
        lastEval := some ⟨s.houseFrame, l.custody.index, (s.params i).policy.getD l.custody.index .none,
          (s.carryOut i ((s.params i).policy.getD l.custody.index .none)).2⟩ },
      some (s.carryOut i ((s.params i).policy.getD l.custody.index .none)).2) := by
    unfold State.evaluate
    rw [h]
    rcases hr with hr | hr <;> simp only [hr]
  rw [hv, onLive_of_some e1]
  refine ⟨_, _, by rw [State.setCustody, onLive_of_some e1, State.live_setLive_self], rfl, ?_⟩
  dsimp only
  rw [e2]

/-- Outside MAIN and SAFE no evaluation is made (R117). -/
theorem evaluate_of_other {s : State} {i : Slot} {l : Live} (h : s.live i = some l) (hm : l.custody.state ≠ .main)
    (hs : l.custody.state ≠ .safe) : s.evaluate i = (s, none) := by
  unfold State.evaluate
  rw [h]
  cases hc : l.custody.state <;> simp_all

/-- One event's changes to a channel's conditions leave it evaluated as R117 says, with the conditions that the changes
gave. -/
theorem changeConditions_channel {s : State} {i : Slot} {l : Live} (h : s.live i = some l) {f : Live → Custody → Custody}
    (hst : (f l l.custody).state = l.custody.state) (hev : (f l l.custody).lastEval = l.custody.lastEval) :
    ∃ l1, (s.changeConditions i f).1.live i = some l1 ∧
      EvaluatedOnChange (s.params i) s.houseFrame l.custody l1.custody ∧
      l1.custody = { f l l.custody with
        state := l1.custody.state, lastEval := l1.custody.lastEval, cueCounter := l1.custody.cueCounter
        takeover := l1.custody.takeover, switchDue := l1.custody.switchDue } := by
  have hs1 : (s.setCustody i (f l l.custody)).live i = some { l with custody := f l l.custody } := by
    rw [State.setCustody, onLive_of_some h, State.live_setLive_self]
  unfold State.changeConditions
  rw [h]
  dsimp only
  split
  · rename_i hi
    obtain ⟨h1, h2, h3, h4⟩ := (index_eq_iff _ _).1 hi
    exact ⟨_, hs1, ⟨fun _ => hev, fun hc => absurd hc (by simp [h1, h2, h3, h4])⟩, rfl⟩
  · rename_i hi
    have hp : (s.setCustody i (f l l.custody)).params i = s.params i := by
      rw [State.setCustody, onLive_of_some h]; simp
    have hh : (s.setCustody i (f l l.custody)).houseFrame = s.houseFrame := by
      rw [State.setCustody, onLive_of_some h]; rfl
    by_cases hr : l.custody.state = .main ∨ l.custody.state = .safe
    · obtain ⟨l1, out, e1, -, e2⟩ := evaluate_channel hs1 (by rw [hst]; exact hr)
      have hm : l1.custody.m = (f l l.custody).m := by rw [e2]
      have hs : l1.custody.s = (f l l.custody).s := by rw [e2]
      have hl : l1.custody.l = (f l l.custody).l := by rw [e2]
      have ha : l1.custody.a = (f l l.custody).a := by rw [e2]
      have hv : l1.custody.lastEval = some ⟨(s.setCustody i (f l l.custody)).houseFrame, (f l l.custody).index,
        ((s.setCustody i (f l l.custody)).params i).policy.getD (f l l.custody).index .none, out⟩ := by rw [e2]
      have ht : l1.custody.state = if out = .takeStarted then .taking else (f l l.custody).state := by
        rw [e2]
      have hidx : policyIndex l1.custody = (f l l.custody).index := by
        rw [policyIndex_eq]; exact (index_eq_iff _ _).2 ⟨hm, hs, hl, ha⟩
      have hne : l1.custody.m ≠ l.custody.m ∨ l1.custody.s ≠ l.custody.s ∨ l1.custody.l ≠ l.custody.l ∨
          l1.custody.a ≠ l.custody.a := by
        rw [hm, hs, hl, ha]
        apply Classical.byContradiction
        intro hc
        simp only [ne_eq, not_or, Classical.not_not] at hc
        exact hi ((index_eq_iff _ _).2 hc)
      refine ⟨l1, e1, ⟨fun hn => absurd ⟨hne, hr⟩ hn, fun _ _ => ⟨out, ?_, ?_⟩⟩, ?_⟩
      · rw [hv, hidx, hp, hh]
      · rw [ht, hst]
      · conv => lhs; rw [e2]
        simp [hv, ht]
    · rw [evaluate_of_other hs1 (by rw [hst]; exact fun e => hr (.inl e)) (by rw [hst]; exact fun e => hr (.inr e))]
      exact ⟨_, hs1, ⟨fun _ => hev, fun _ hr' => absurd hr' hr⟩, rfl⟩

end Sys2Proof.Machine
end

