-- ==== Sys2Proof/Laws/PerInstr.lean ====
section
/-! SUPPORT. Statements about every command, as syntax, one lemma for each constructor. -/

/-- The characters written for a command are those of a request frame of its own port and tag, under its code in the
roles table (R207); a command that is no request has none. -/
def Sys2Proof.Laws.RequestCode.Statement (i : Sys2Proof.Instr) : Prop :=
  (Sys2Proof.encodeRequest i).map (fun x => (x.1, x.2.1)) = Sys2Proof.Machine.requestOf i

theorem Sys2Proof.Laws.RequestCode.deviceReset (pins : Sys2Proof.RatePins) :
    Sys2Proof.Laws.RequestCode.Statement (Sys2Proof.Instr.deviceReset pins) := rfl

theorem Sys2Proof.Laws.RequestCode.storeInitialisationEnd :
    Sys2Proof.Laws.RequestCode.Statement (Sys2Proof.Instr.storeInitialisationEnd) := rfl

theorem Sys2Proof.Laws.RequestCode.housePulse (moment : Nat) (custodyFirst : List Nat) :
    Sys2Proof.Laws.RequestCode.Statement (Sys2Proof.Instr.housePulse moment custodyFirst) := rfl

theorem Sys2Proof.Laws.RequestCode.insertedArrival (moment : Nat) (custodyFirst : List Nat) :
    Sys2Proof.Laws.RequestCode.Statement (Sys2Proof.Instr.insertedArrival moment custodyFirst) := rfl

theorem Sys2Proof.Laws.RequestCode.holdLimit (slot : Nat) :
    Sys2Proof.Laws.RequestCode.Statement (Sys2Proof.Instr.holdLimit slot) := rfl

theorem Sys2Proof.Laws.RequestCode.leaseExpired (slot : Nat) :
    Sys2Proof.Laws.RequestCode.Statement (Sys2Proof.Instr.leaseExpired slot) := rfl

theorem Sys2Proof.Laws.RequestCode.presenceExpiry (port : Sys2Proof.Port) :
    Sys2Proof.Laws.RequestCode.Statement (Sys2Proof.Instr.presenceExpiry port) := rfl

theorem Sys2Proof.Laws.RequestCode.commitCompletion (completion : Sys2Proof.CompletionFields) :
    Sys2Proof.Laws.RequestCode.Statement (Sys2Proof.Instr.commitCompletion completion) := rfl

theorem Sys2Proof.Laws.RequestCode.switchFrameReached (slot : Nat) :
    Sys2Proof.Laws.RequestCode.Statement (Sys2Proof.Instr.switchFrameReached slot) := rfl

theorem Sys2Proof.Laws.RequestCode.returnSwitchFrame (slot : Nat) :
    Sys2Proof.Laws.RequestCode.Statement (Sys2Proof.Instr.returnSwitchFrame slot) := rfl

theorem Sys2Proof.Laws.RequestCode.badFrame (port : Sys2Proof.Port) (cause : Sys2Proof.BadFrameCause) :
    Sys2Proof.Laws.RequestCode.Statement (Sys2Proof.Instr.badFrame port cause) := rfl

theorem Sys2Proof.Laws.RequestCode.lineBreak (port : Sys2Proof.Port) :
    Sys2Proof.Laws.RequestCode.Statement (Sys2Proof.Instr.lineBreak port) := rfl

theorem Sys2Proof.Laws.RequestCode.unknownRequest (hd : Sys2Proof.Head) (code : Nat) :
    Sys2Proof.Laws.RequestCode.Statement (Sys2Proof.Instr.unknownRequest hd code) := rfl

theorem Sys2Proof.Laws.RequestCode.presence (hd : Sys2Proof.Head) (body : Sys2Proof.Body (List Sys2Proof.PresenceEntry)) :
    Sys2Proof.Laws.RequestCode.Statement (Sys2Proof.Instr.presence hd body) := rfl

theorem Sys2Proof.Laws.RequestCode.portReset (hd : Sys2Proof.Head) (body : Sys2Proof.Body Unit) :
    Sys2Proof.Laws.RequestCode.Statement (Sys2Proof.Instr.portReset hd body) := rfl

theorem Sys2Proof.Laws.RequestCode.setTime (hd : Sys2Proof.Head) (body : Sys2Proof.Body Sys2Proof.SchedTime) :
    Sys2Proof.Laws.RequestCode.Statement (Sys2Proof.Instr.setTime hd body) := rfl

theorem Sys2Proof.Laws.RequestCode.configureHouse (hd : Sys2Proof.Head) (body : Sys2Proof.Body Sys2Proof.HouseFields) :
    Sys2Proof.Laws.RequestCode.Statement (Sys2Proof.Instr.configureHouse hd body) := rfl

theorem Sys2Proof.Laws.RequestCode.configureChannel (hd : Sys2Proof.Head) (body : Sys2Proof.Body Sys2Proof.ChannelFields) :
    Sys2Proof.Laws.RequestCode.Statement (Sys2Proof.Instr.configureChannel hd body) := rfl

theorem Sys2Proof.Laws.RequestCode.readChannel (hd : Sys2Proof.Head) (body : Sys2Proof.Body Nat) :
    Sys2Proof.Laws.RequestCode.Statement (Sys2Proof.Instr.readChannel hd body) := rfl

theorem Sys2Proof.Laws.RequestCode.openBatch (hd : Sys2Proof.Head) (body : Sys2Proof.Body Sys2Proof.OpenFields) :
    Sys2Proof.Laws.RequestCode.Statement (Sys2Proof.Instr.openBatch hd body) := rfl

theorem Sys2Proof.Laws.RequestCode.addEntries (hd : Sys2Proof.Head) (body : Sys2Proof.Body Sys2Proof.AddFields) :
    Sys2Proof.Laws.RequestCode.Statement (Sys2Proof.Instr.addEntries hd body) := rfl

theorem Sys2Proof.Laws.RequestCode.closeBatch (hd : Sys2Proof.Head) (body : Sys2Proof.Body Sys2Proof.CloseFields) :
    Sys2Proof.Laws.RequestCode.Statement (Sys2Proof.Instr.closeBatch hd body) := rfl

theorem Sys2Proof.Laws.RequestCode.abortBatch (hd : Sys2Proof.Head) (body : Sys2Proof.Body Nat) :
    Sys2Proof.Laws.RequestCode.Statement (Sys2Proof.Instr.abortBatch hd body) := rfl

theorem Sys2Proof.Laws.RequestCode.readEvents (hd : Sys2Proof.Head) (body : Sys2Proof.Body Sys2Proof.ReadFields) :
    Sys2Proof.Laws.RequestCode.Statement (Sys2Proof.Instr.readEvents hd body) := rfl

theorem Sys2Proof.Laws.RequestCode.readNextEvents (hd : Sys2Proof.Head) (body : Sys2Proof.Body Nat) :
    Sys2Proof.Laws.RequestCode.Statement (Sys2Proof.Instr.readNextEvents hd body) := rfl

theorem Sys2Proof.Laws.RequestCode.readCursor (hd : Sys2Proof.Head) (body : Sys2Proof.Body Sys2Proof.CursorFields) :
    Sys2Proof.Laws.RequestCode.Statement (Sys2Proof.Instr.readCursor hd body) := rfl

theorem Sys2Proof.Laws.RequestCode.take (hd : Sys2Proof.Head) (body : Sys2Proof.Body Sys2Proof.TakeFields) :
    Sys2Proof.Laws.RequestCode.Statement (Sys2Proof.Instr.take hd body) := rfl

theorem Sys2Proof.Laws.RequestCode.cancelTake (hd : Sys2Proof.Head) (body : Sys2Proof.Body Nat) :
    Sys2Proof.Laws.RequestCode.Statement (Sys2Proof.Instr.cancelTake hd body) := rfl

theorem Sys2Proof.Laws.RequestCode.fetchCue (hd : Sys2Proof.Head) (body : Sys2Proof.Body Nat) :
    Sys2Proof.Laws.RequestCode.Statement (Sys2Proof.Instr.fetchCue hd body) := rfl

theorem Sys2Proof.Laws.RequestCode.cueReady (hd : Sys2Proof.Head) (body : Sys2Proof.Body Sys2Proof.ReadyFields) :
    Sys2Proof.Laws.RequestCode.Statement (Sys2Proof.Instr.cueReady hd body) := rfl

theorem Sys2Proof.Laws.RequestCode.hold (hd : Sys2Proof.Head) (body : Sys2Proof.Body Nat) :
    Sys2Proof.Laws.RequestCode.Statement (Sys2Proof.Instr.hold hd body) := rfl

theorem Sys2Proof.Laws.RequestCode.releaseHold (hd : Sys2Proof.Head) (body : Sys2Proof.Body Sys2Proof.ReleaseFields) :
    Sys2Proof.Laws.RequestCode.Statement (Sys2Proof.Instr.releaseHold hd body) := rfl

theorem Sys2Proof.Laws.RequestCode.handback (hd : Sys2Proof.Head) (body : Sys2Proof.Body Sys2Proof.ReturnFields) :
    Sys2Proof.Laws.RequestCode.Statement (Sys2Proof.Instr.handback hd body) := rfl

theorem Sys2Proof.Laws.RequestCode.cancelReturn (hd : Sys2Proof.Head) (body : Sys2Proof.Body Nat) :
    Sys2Proof.Laws.RequestCode.Statement (Sys2Proof.Instr.cancelReturn hd body) := rfl

theorem Sys2Proof.Laws.RequestCode.arm (hd : Sys2Proof.Head) (body : Sys2Proof.Body Sys2Proof.ArmFields) :
    Sys2Proof.Laws.RequestCode.Statement (Sys2Proof.Instr.arm hd body) := rfl

theorem Sys2Proof.Laws.RequestCode.matchChannels (hd : Sys2Proof.Head) (body : Sys2Proof.Body Sys2Proof.MatchFields) :
    Sys2Proof.Laws.RequestCode.Statement (Sys2Proof.Instr.matchChannels hd body) := rfl

theorem Sys2Proof.Laws.RequestCode.readAsRun (hd : Sys2Proof.Head) (body : Sys2Proof.Body Sys2Proof.AsRunFields) :
    Sys2Proof.Laws.RequestCode.Statement (Sys2Proof.Instr.readAsRun hd body) := rfl

theorem Sys2Proof.Laws.RequestCode.mark (hd : Sys2Proof.Head) (body : Sys2Proof.Body Sys2Proof.MarkFields) :
    Sys2Proof.Laws.RequestCode.Statement (Sys2Proof.Instr.mark hd body) := rfl

theorem Sys2Proof.Laws.RequestCode.readStatus (hd : Sys2Proof.Head) (body : Sys2Proof.Body Unit) :
    Sys2Proof.Laws.RequestCode.Statement (Sys2Proof.Instr.readStatus hd body) := rfl

theorem Sys2Proof.Laws.RequestCode.readFaults (hd : Sys2Proof.Head) (body : Sys2Proof.Body Unit) :
    Sys2Proof.Laws.RequestCode.Statement (Sys2Proof.Instr.readFaults hd body) := rfl

theorem Sys2Proof.Laws.RequestCode.clearFaults (hd : Sys2Proof.Head) (body : Sys2Proof.Body Sys2Proof.ClearFields) :
    Sys2Proof.Laws.RequestCode.Statement (Sys2Proof.Instr.clearFaults hd body) := rfl

theorem Sys2Proof.Laws.RequestCode.lineIdle (port : Sys2Proof.Port) :
    Sys2Proof.Laws.RequestCode.Statement (Sys2Proof.Instr.lineIdle port) := rfl

theorem Sys2Proof.Laws.RequestCode.lineReturnsToMark (port : Sys2Proof.Port) :
    Sys2Proof.Laws.RequestCode.Statement (Sys2Proof.Instr.lineReturnsToMark port) := rfl
end

