-- ==== Sys2Proof/Laws/Requests.lean ====
section
/-! SUPPORT. What the taking of a request can do, and what the checks of a request answer. -/

namespace Sys2Proof.Machine

/-! ## Checks -/

@[simp] theorem refuseIf_true {α : Type} (st : Status) (rest : Verdict α) :
    refuseIf true st rest = .error (st, .empty) := rfl

@[simp] theorem refuseIf_false {α : Type} (st : Status) (rest : Verdict α) : refuseIf false st rest = rest := rfl

@[simp] theorem refuseWith_true {α : Type} (st : Status) (b : ReplyBody) (rest : Verdict α) :
    refuseWith true st b rest = .error (st, b) := rfl

@[simp] theorem refuseWith_false {α : Type} (st : Status) (b : ReplyBody) (rest : Verdict α) :
    refuseWith false st b rest = rest := rfl

/-- A check that passes does not hold, and what follows it passes. -/
theorem refuseIf_eq_ok {α : Type} {c : Bool} {st : Status} {rest : Verdict α} {a : α} :
    refuseIf c st rest = .ok a ↔ c = false ∧ rest = .ok a := by
  cases c <;> simp

theorem refuseWith_eq_ok {α : Type} {c : Bool} {st : Status} {b : ReplyBody} {rest : Verdict α} {a : α} :
    refuseWith c st b rest = .ok a ↔ c = false ∧ rest = .ok a := by
  cases c <;> simp

theorem fromDr_eq_ok {α : Type} {hd : Head} {rest : Verdict α} {a : α} :
    fromDr hd rest = .ok a ↔ hd.port ≠ .L ∧ rest = .ok a := by
  simp [fromDr, refuseIf_eq_ok]

theorem whenReady_eq_ok {α : Type} {s : State} {rest : Verdict α} {a : α} :
    s.whenReady rest = .ok a ↔ s.storeReady = true ∧ rest = .ok a := by
  simp [State.whenReady, refuseIf_eq_ok]

/-- A channel that a request names is in service, with the state the check hands on. -/
theorem live_of_address {s : State} {p : Port} {ch : Nat} {i : Slot} {l : Live} (h : s.address p ch = .ok (i, l)) :
    s.live i = some l := by
  unfold State.address at h
  cases p with
  | L =>
    cases hs : s.slotOfService ch with
    | none => simp [hs] at h
    | some j =>
      cases hl : s.live j with
      | none => simp [hs, hl] at h
      | some m => simp [hs, hl] at h; obtain ⟨rfl, rfl⟩ := h; exact hl
  | A =>
    cases hs : slotOf ch with
    | none => simp [hs] at h
    | some j =>
      cases hl : s.live j with
      | none => simp [hs, hl] at h
      | some m => simp [hs, hl] at h; obtain ⟨rfl, rfl⟩ := h; exact hl
  | B =>
    cases hs : slotOf ch with
    | none => simp [hs] at h
    | some j =>
      cases hl : s.live j with
      | none => simp [hs, hl] at h
      | some m => simp [hs, hl] at h; obtain ⟨rfl, rfl⟩ := h; exact hl

theorem addressed_of_ok {α : Type} {s : State} {p : Port} {ch : Nat} {i : Slot} {l : Live}
    (h : s.address p ch = .ok (i, l)) (k : Slot → Live → Verdict α) : s.addressed p ch k = k i l := by
  simp [State.addressed, h]

/-- A chain that passes after the channel field names a channel in service (R207). -/
theorem addressed_eq_ok {α : Type} {s : State} {p : Port} {ch : Nat} {k : Slot → Live → Verdict α} {a : α} :
    s.addressed p ch k = .ok a ↔ ∃ i l, s.address p ch = .ok (i, l) ∧ k i l = .ok a := by
  unfold State.addressed
  split
  · simp_all
  · rename_i i l h
    constructor
    · intro hk; exact ⟨i, l, h, hk⟩
    · rintro ⟨j, m, hj, hk⟩
      rw [h] at hj
      simp only [Except.ok.injEq, Prod.mk.injEq] at hj
      obtain ⟨rfl, rfl⟩ := hj
      exact hk

theorem toFrame_moved_only {r : HouseRate} {t : SchedTime} {c : Nat × Bool} (h : toFrame r t = some c) :
    timecodeInRange r t.tc = true ∧ t.day ≤ Config.lastDay ∧ c.2 = labelDropped r t.tc := by
  unfold toFrame at h
  split at h
  · rename_i hc
    simp only [Bool.and_eq_true, decide_eq_true_eq] at hc
    simp only [Option.some.injEq] at h
    subst h
    exact ⟨hc.1, hc.2, rfl⟩
  · simp at h

/-! ## Conclusions -/

@[simp] theorem conclude_error {α : Type} (s : State) (hd : Head) (code : Nat) (e : Status × ReplyBody)
    (k : α → State) : s.conclude hd code (.error e) k = s.answer hd code e.1 e.2 := rfl

@[simp] theorem conclude_ok {α : Type} (s : State) (hd : Head) (code : Nat) (a : α) (k : α → State) :
    s.conclude hd code (.ok a) k = k a := rfl

/-! ## The taking of a request (R204 to R209) -/

theorem arrive_of_present {s : State} {p : Port} (h : s.present p = true) : s.arrive p = s.restartPresence p := by
  simp [State.arrive, h]

theorem Ready.hears {s : State} {p : Port} (h : Ready s p) : hears (s.port p).receive = true := h.1.1

theorem Ready.idle {s : State} {p : Port} (h : Ready s p) : (s.port p).inProgress = none := h.1.2

theorem Ready.isPresent {s : State} {p : Port} (h : Ready s p) : s.present p = true := h.2

/-- Everything the taking of a request can do: nothing on a line that hears no frame; PORT_BUSY; BAD_FIELD for a body
that its layout does not divide; or the request's own act, after presence. -/
theorem takeRequestWith_cases {α : Type} (w : State → ReplyBody) (hd : Head) (code : Nat) (b : Body α)
    (act : α → State → State) (s : State) :
    takeRequestWith w hd code b act s = s ∨
    takeRequestWith w hd code b act s = (s.arrive hd.port).answer hd code .portBusy (w (s.arrive hd.port)) ∨
    takeRequestWith w hd code b act s = (s.arrive hd.port).answer hd code .badField (w (s.arrive hd.port)) ∨
    ∃ f, b = .fields f ∧ takeRequestWith w hd code b act s = act f (s.arrive hd.port) := by
  unfold takeRequestWith
  split
  · dsimp only
    split
    · exact .inr (.inl rfl)
    · cases b with
      | misfit => exact .inr (.inr (.inl rfl))
      | fields f => exact .inr (.inr (.inr ⟨f, rfl, rfl⟩))
  · exact .inl rfl

/-- A request of a ready port, with a body that divides, is acted on after its presence timer has restarted. -/
theorem takeRequestWith_of_ready {α : Type} (w : State → ReplyBody) {s : State} {hd : Head} (h : Ready s hd.port)
    (code : Nat) (f : α) (act : α → State → State) :
    takeRequestWith w hd code (.fields f) act s = act f (s.restartPresence hd.port) := by
  simp [takeRequestWith, h.hears, arrive_of_present h.isPresent, State.restartPresence, h.idle]

theorem takeRequestWith_misfit {α : Type} (w : State → ReplyBody) {s : State} {hd : Head} (h : Ready s hd.port)
    (code : Nat) (act : α → State → State) :
    takeRequestWith w hd code .misfit act s =
      (s.restartPresence hd.port).answer hd code .badField (w (s.restartPresence hd.port)) := by
  simp [takeRequestWith, h.hears, arrive_of_present h.isPresent, State.restartPresence, h.idle]

theorem takeRequestWith_deaf {α : Type} (w : State → ReplyBody) {s : State} {hd : Head}
    (h : hears (s.port hd.port).receive = false) (code : Nat) (b : Body α) (act : α → State → State) :
    takeRequestWith w hd code b act s = s := by
  simp [takeRequestWith, h]

theorem takeRequestWith_busy {α : Type} (w : State → ReplyBody) {s : State} {hd : Head}
    (hh : hears (s.port hd.port).receive = true) (hp : s.present hd.port = true)
    (hb : (s.port hd.port).inProgress.isSome = true) (code : Nat) (b : Body α) (act : α → State → State) :
    takeRequestWith w hd code b act s =
      (s.restartPresence hd.port).answer hd code .portBusy (w (s.restartPresence hd.port)) := by
  simp [takeRequestWith, hh, arrive_of_present hp, State.restartPresence, hb]

/-! The same of the requests whose answers by the Port Unit carry no field. -/

theorem takeRequest_of_ready {α : Type} {s : State} {hd : Head} (h : Ready s hd.port) (code : Nat) (f : α)
    (act : α → State → State) :
    takeRequest hd code (.fields f) act s = act f (s.restartPresence hd.port) :=
  takeRequestWith_of_ready _ h code f act

theorem takeRequest_misfit {α : Type} {s : State} {hd : Head} (h : Ready s hd.port) (code : Nat)
    (act : α → State → State) :
    takeRequest hd code .misfit act s = (s.restartPresence hd.port).answer hd code .badField .empty :=
  takeRequestWith_misfit _ h code act

theorem takeRequest_deaf {α : Type} {s : State} {hd : Head} (h : hears (s.port hd.port).receive = false) (code : Nat)
    (b : Body α) (act : α → State → State) : takeRequest hd code b act s = s :=
  takeRequestWith_deaf _ h code b act

theorem takeRequest_busy {α : Type} {s : State} {hd : Head} (hh : hears (s.port hd.port).receive = true)
    (hp : s.present hd.port = true) (hb : (s.port hd.port).inProgress.isSome = true) (code : Nat) (b : Body α)
    (act : α → State → State) :
    takeRequest hd code b act s = (s.restartPresence hd.port).answer hd code .portBusy .empty :=
  takeRequestWith_busy _ hh hp hb code b act

theorem takeRequest_cases {α : Type} (hd : Head) (code : Nat) (b : Body α) (act : α → State → State) (s : State) :
    takeRequest hd code b act s = s ∨
    takeRequest hd code b act s = (s.arrive hd.port).answer hd code .portBusy .empty ∨
    takeRequest hd code b act s = (s.arrive hd.port).answer hd code .badField .empty ∨
    ∃ f, b = .fields f ∧ takeRequest hd code b act s = act f (s.arrive hd.port) :=
  takeRequestWith_cases _ hd code b act s

/-! ## The checks of READ AS-RUN (R162, R174) -/

/-- A refused READ AS-RUN meets a condition of R174, whose status it answers, and carries the state of the log. -/
theorem checkRead_eq_error {r : AsRun} {p : Port} {f : AsRunFields} {e : Status × ReplyBody} :
    r.checkRead p f = .error e ↔ ∃ st, asRunRefusal p f = some st ∧ e = (st, r.refusal) := by
  cases h : asRunRefusal p f <;> simp [AsRun.checkRead, h, eq_comm]

/-- An accepted one meets none. -/
theorem checkRead_eq_ok {r : AsRun} {p : Port} {f : AsRunFields} :
    r.checkRead p f = .ok () ↔ asRunRefusal p f = none := by
  cases h : asRunRefusal p f <;> simp [AsRun.checkRead, h]

/-! ## What the state of a port does not bear on -/

@[simp] theorem inService_setPort (s : State) (p : Port) (u : PortUnit) : (s.setPort p u).inService = s.inService := by
  simp [State.inService]

@[simp] theorem inService_restartPresence (s : State) (p : Port) : (s.restartPresence p).inService = s.inService :=
  inService_setPort s p _

@[simp] theorem inService_reply (s : State) (p : Port) (code tag : Nat) (st : Status) (b : ReplyBody) :
    (s.reply p code tag st b).inService = s.inService :=
  inService_setPort s p _

@[simp] theorem slotOfService_restartPresence (s : State) (p : Port) (id : Nat) :
    (s.restartPresence p).slotOfService id = s.slotOfService id := by
  simp [State.slotOfService]

/-- The channel that a request names does not depend on the restart of a presence timer. -/
@[simp] theorem address_restartPresence (s : State) (p q : Port) (ch : Nat) :
    (s.restartPresence q).address p ch = s.address p ch := by
  cases p <;> simp [State.address]

@[simp] theorem channelActive_restartPresence (s : State) (p : Port) :
    (s.restartPresence p).channelActive = s.channelActive := by
  simp [State.channelActive, State.anyInFlight]

@[simp] theorem freeBuffers_restartPresence (s : State) (p : Port) : (s.restartPresence p).freeBuffers = s.freeBuffers := by
  simp [State.freeBuffers, State.buffersInUse]

@[simp] theorem freeSlots_restartPresence (s : State) (p : Port) : (s.restartPresence p).freeSlots = s.freeSlots := by
  simp [State.freeSlots, State.slotsInUse]

@[simp] theorem quotaSum_restartPresence (s : State) (p : Port) : (s.restartPresence p).quotaSum = s.quotaSum := by
  simp [State.quotaSum]

@[simp] theorem armSet_restartPresence (s : State) (p : Port) : (s.restartPresence p).armSet = s.armSet := by
  simp [State.armSet]

@[simp] theorem service_restartPresence (s : State) (p : Port) (i : Slot) : (s.restartPresence p).service i = s.service i := by
  simp [State.service]

@[simp] theorem houseFrame_restartPresence (s : State) (p : Port) : (s.restartPresence p).houseFrame = s.houseFrame := by
  simp [State.houseFrame]

@[simp] theorem frame_restartPresence (s : State) (p : Port) (h : Nat) : (s.restartPresence p).frame h = s.frame h := by
  simp [State.frame]

@[simp] theorem reportedH_restartPresence (s : State) (p : Port) : (s.restartPresence p).reportedH = s.reportedH := by
  have e : (s.restartPresence p).frame = s.frame := funext (frame_restartPresence s p)
  simp [State.reportedH, e]

@[simp] theorem timeoutOf_restartPresence (s : State) (p q : Port) : (s.restartPresence p).timeoutOf q = s.timeoutOf q := by
  simp [State.timeoutOf]

/-- An attention set is that of the reasons, the marks, the log and the channels: a port's other fields do not bear on
it. -/
theorem attention_setPort (s : State) (p q : Port) (u : PortUnit) (hr : u.reasons = (s.port p).reasons)
    (hm : u.mark = (s.port p).mark) : (s.setPort p u).attention q = s.attention q := by
  by_cases e : q = p
  · subst e; simp [State.attention, State.cuePending, State.asRunWaiting, hr, hm]
  · simp [State.attention, State.cuePending, State.asRunWaiting, e]

@[simp] theorem attention_restartPresence (s : State) (p q : Port) : (s.restartPresence p).attention q = s.attention q :=
  attention_setPort s p q _ rfl rfl

@[simp] theorem attention_reply (s : State) (p q : Port) (code tag : Nat) (st : Status) (b : ReplyBody) :
    (s.reply p code tag st b).attention q = s.attention q :=
  attention_setPort s p q _ rfl rfl

/-- A request is answered by a reply on its own port (R206). -/
theorem answer_eq_reply (s : State) (hd : Head) (code : Nat) (st : Status) (b : ReplyBody) :
    s.answer hd code st b = s.reply hd.port code hd.tag st b := rfl

/-- What a reply leaves its port: one reply more, carrying the attention set as it stands (R215). -/
theorem port_reply_self (s : State) (p : Port) (code tag : Nat) (st : Status) (b : ReplyBody) :
    (s.reply p code tag st b).port p =
      { s.port p with sent := (s.port p).sent ++ [⟨code, tag, st, s.attention p, b⟩] } := by
  simp [State.reply]

theorem port_reply_ne (s : State) {p q : Port} (h : q ≠ p) (code tag : Nat) (st : Status) (b : ReplyBody) :
    (s.reply p code tag st b).port q = s.port q := by
  simp [State.reply, h]

end Sys2Proof.Machine
end

