-- ==== Sys2Proof/Certificates/Slice0/Obligations.lean ====
section
/-! DEFINITION. The statements made about the part, for the provers. -/

section
open Sys2Proof Sys2Proof.Machine

/-! ## Every command -/

/-- The command at the front of the queue is run on the state with the queue's rest.  The queue is the model's own
(NOTES.md); that an empty one idles is log entry 17, and no part of this statement. -/
def Obligations.StepRunsTheFrontCommand : Prop :=
  ∀ (c : Instr) (rest : List Instr) (s : State), s.pending = c :: rest → step s = exec c { s with pending := rest }

/-- Every command leaves a next state, and leaves the queue to the step. -/
def Obligations.EveryCommandKeepsTheQueue : Prop :=
  ∀ (c : Instr) (s : State), ∃ t, exec c s = .next t ∧ t.pending = s.pending

/-- R209: the change to PRESENT that a request ends an absence with comes first, with its consequences; the request
then meets what the change has left.  A PRESENCE of Port L, which the change joins as one event, is stated apart.  The
consequences: at an automation port (R126), a swap to it on each channel in DR under the other, ABSENT port, every
other channel as it was; at Port L (R110, R112, R117), M and L recomputed on every channel, each channel in MAIN or
SAFE evaluated once where they changed, and none moved from its custodian. -/
def Obligations.PresenceChangePrecedesTheRequest : Prop :=
  (∀ (c : Instr) (hd : Head) (code : Nat) (s : State), requestOf c = some (hd, code) → ¬(hd.port = .L ∧ code = 1) →
    hears (s.port hd.port).receive = true → s.present hd.port = false → exec c s = exec c (s.arrive hd.port)) ∧
  (∀ (d : DrPort) (s t : State), s.present (drPort d) = false → t = s.arrive (drPort d) →
    t.present (drPort d) = true ∧ SystemKept s t ∧ t.asRun = s.asRun ∧
    ∀ i, t.params i = s.params i ∧ (s.live i = none → t.live i = none) ∧ ∀ l, s.live i = some l →
      let swaps := l.custody.state = .dr ∧ l.custody.custodian = some (drPort (otherDr d)) ∧
        s.present (drPort (otherDr d)) = false
      (¬swaps → t.live i = some l) ∧
      (swaps → CustodyChangeRaised t ∧ ∃ k, t.live i = some { l with custody := { l.custody with
          state := .taking, cueCounter := k.cue.number, takeover := some k, switchDue := false } } ∧
        k.prevState = .dr ∧ k.prevOutput = l.custody.output ∧ k.origin = .swap ∧ k.mode = .now ∧ k.firstChoice = d ∧
        k.target = d ∧ k.attempt = 1 ∧
        k.cue.number = (if l.custody.cueCounter < 65535 then l.custody.cueCounter + 1 else 1) ∧
        k.cue.switchFrame = s.reference.h + (s.params i).cueLead ∧
        k.cue.state = if l.inFlight then .computing else .issued)) ∧
  ∀ s t : State, s.present .L = false → t = s.arrive .L →
    t.present .L = true ∧ SystemKept s t ∧ t.asRun = s.asRun ∧
    ∀ i, t.params i = s.params i ∧ (s.live i = none → t.live i = none) ∧ ∀ l, s.live i = some l →
      ∃ l', t.live i = some l' ∧ l'.custody.m = !l.custody.healthy ∧
        l'.custody.l = (match l.custody.behind with
          | some b => decide ((s.params i).lagLimit ≤ s.reference.h - b)
          | none => false) ∧
        l'.custody.s = l.custody.s ∧ l'.custody.a = l.custody.a ∧ l'.custody.custodian = l.custody.custodian ∧
        l'.custody.output = l.custody.output ∧ l'.events = l.events ∧ l'.timeline = l.timeline ∧
        EvaluatedOnChange (s.params i) s.houseFrame l.custody l'.custody ∧
        (l'.custody.m = l.custody.m → l'.custody.l = l.custody.l → l' = l) ∧
        (l.custody.state ≠ .main → l.custody.state ≠ .safe →
          l' = { l with custody := { l.custody with m := l'.custody.m, l := l'.custody.l } })

/-- R208: every request taken starts or restarts its port's presence timer, whatever its code, reply and role. -/
def Obligations.EveryRequestRestartsPresence : Prop :=
  ∀ (c : Instr) (hd : Head) (code : Nat) (s t : State), requestOf c = some (hd, code) →
    hears (s.port hd.port).receive = true → exec c s = .next t →
    (t.port hd.port).presence = some (s.timeoutOf hd.port) ∧ (t.port hd.port).receive = .hunting

/-- R206, R207: a request taken while another of its port is in progress is answered PORT_BUSY, PORT RESET excepted;
otherwise a body that its request's layout does not divide is answered BAD_FIELD, and a code that names no request
UNKNOWN_REQUEST.  Nothing else is done.  The replies carry no field, but for those to READ AS-RUN, which carry what R162
puts in every reply to it (that it does so in these too is DEDUCED, log entry 44). -/
def Obligations.RequestsThatReachNoBlockAreAnswered : Prop :=
  ∀ (c : Instr) (hd : Head) (code : Nat) (s : State), requestOf c = some (hd, code) →
    hears (s.port hd.port).receive = true → s.present hd.port = true →
    let body := match c with
      | .readAsRun _ _ =>
        .asRunRefused s.asRun.newest (s.asRun.ring.head?.map (·.seq)) s.asRun.nextSeq.isNone s.asRun.dropped
      | _ => .empty
    let answer := fun (st : Status) =>
      exec c s = .next ((s.restartPresence hd.port).reply hd.port code hd.tag st body)
    ((s.port hd.port).inProgress.isSome = true → code ≠ 2 → answer .portBusy) ∧
    ((s.port hd.port).inProgress = none →
      (bodyMisfits c = true → answer .badField) ∧ (c = .unknownRequest hd code → answer .unknownRequest))

/-- The roles table of R207: Port L is refused NOT_PERMITTED the twelve requests it may not send, Ports A and B are
refused RETURN, and nothing else is done. -/
def Obligations.RolesAreKept : Prop :=
  ∀ (c : Instr) (hd : Head) (code : Nat) (s : State), requestOf c = some (hd, code) →
    (∀ n, c ≠ .unknownRequest hd n) → bodyMisfits c = false → Ready s hd.port → s.storeReady = true →
    (hd.port = .L ∧ code ∈ drOnlyCodes) ∨ (hd.port ≠ .L ∧ code = 20) →
    exec c s = .next ((s.restartPresence hd.port).reply hd.port code hd.tag .notPermitted .empty)

/-- R21: while the store is initialising, the requests that touch event lists are answered BUSY and not acted on,
whatever port they arrive on and whatever channel they name. -/
def Obligations.InitialisingStoreAnswersBusy : Prop :=
  ∀ (c : Instr) (hd : Head) (code : Nat) (s : State), requestOf c = some (hd, code) →
    (∀ n, c ≠ .unknownRequest hd n) → bodyMisfits c = false → Ready s hd.port → s.storeReady = false →
    code ∈ listCodes → exec c s = .next ((s.restartPresence hd.port).reply hd.port code hd.tag .busy .empty)

/-! ## Frames on the line -/

/-- R216: the body written for a well-formed request divides back into that request.  The layouts rest on R215 and R216
and, where these leave them open, on the model's own: the record's length character (PRESUMED, log entry 13) and the
codes and orders of log entry 26 (DEDUCED). -/
def Obligations.RequestBodiesDivideBack : Prop :=
  ∀ (i : Instr) (hd : Head) (code : Nat) (bs : List Byte), i.wf canReadRecord = true →
    encodeRequest i = some (hd, code, bs) → decodeRequest hd.port code hd.tag bs = i

/-- R204, R215, R216: the frame of a well-formed request, received character by character on a hunting line, is taken
at its last check character as exactly that request, and the line hunts again.  The layouts rest on log entries 13
(PRESUMED) and 26 (DEDUCED) as for the bodies, and the line's order of characters on log entry 25. -/
def Obligations.FramesAreTakenAsTheirRequest : Prop :=
  ∀ (i : Instr) (hd : Head) (code : Nat) (bs : List Byte), i.wf canReadRecord = true →
    encodeRequest i = some (hd, code, bs) → bs.length ≤ 2048 →
    receiveAll hd.port .hunting ((requestFrame code hd.tag bs).map fun b => .char b true) = (.hunting, [i])

/-! ## Laws that every step keeps -/

/-- Every law holds of the part right after reset. -/
def Obligations.EveryLawHoldsAtReset : Prop :=
  OutputLaw State.reset ∧ CustodyLaw State.reset ∧ SegmentLaw State.reset ∧ TimelineLaw State.reset ∧
  CueLaw State.reset ∧ LogLaw State.reset ∧ PoolLaw State.reset ∧ MapLaw State.reset ∧ ParameterLaw State.reset ∧
  StagingLaw State.reset

/-- R108: output and custodian agree on every in-service channel, and every step keeps it so. -/
def Obligations.StepsKeepOutputWithCustodian : Prop :=
  ∀ s t : State, OutputLaw s → step s = .next t → OutputLaw t

/-- R106, R107, R149: the custody state agrees with the custodian and the records held, and every step keeps it so. -/
def Obligations.StepsKeepCustodyInAgreement : Prop :=
  ∀ s t : State, CustodyLaw s → step s = .next t → CustodyLaw t

/-- R165: a segment is open only under a DR output, that output is the segment's, and every step keeps it so. -/
def Obligations.StepsKeepSegmentsUnderDrOutputs : Prop :=
  ∀ s t : State, SegmentLaw s → step s = .next t → SegmentLaw t

/-- R40: the timeline is the resolution of the list, the anchor and the held event, and every step keeps it so.  R136,
R137: so is the cue of a TAKING channel what the cursor at its switch frame makes of it, unless it is COMPUTING. -/
def Obligations.StepsKeepTimelinesResolved : Prop :=
  ∀ s t : State, (TimelineLaw s → step s = .next t → TimelineLaw t) ∧ (CueLaw s → step s = .next t → CueLaw t)

/-- R163, R171, R173: the ring keeps consecutive numbers up to the newest, which no read mark and no channel's latest
number exceeds, and every step keeps it so. -/
def Obligations.StepsKeepTheLogInSequence : Prop :=
  ∀ s t : State, LogLaw s → step s = .next t → LogLaw t

/-- R20, R24, R83, R186: the quota sum stays within the event pool, every list within its quota and without two events
of one id, a list stored by a completion and not yet installed included, completions within their commits, and the OPEN
and SEALED batches within the 8 staging buffers, at every step. -/
def Obligations.StepsKeepThePoolsWithinBounds : Prop :=
  ∀ s t : State, (PoolLaw s → step s = .next t → PoolLaw t) ∧ (StagingLaw s → step s = .next t → StagingLaw t)

/-- R180, R181, R185: parameters stay in their ranges and relations, and no two in-service channels come to carry the
same service ID. -/
def Obligations.StepsKeepTheChannelTableSound : Prop :=
  ∀ s t : State, ParameterLaw s ∧ MapLaw s → step s = .next t → ParameterLaw t ∧ MapLaw t

/-! ## House time and timelines -/

/-- R10 to R16: every frame up to the highest is reported with a day and timecode that name that frame, unadjusted. -/
def Obligations.ReportedLabelsNameTheirFrame : Prop :=
  ∀ (r : HouseRate) (h : Nat), h ≤ maxH r → ∃ t, frameField r h = ⟨h, some t⟩ ∧ toFrame r t = some (h, false)

/-- R42 to R51: of two placed events of a resolved list, the earlier in the list passes on an end no later than the
start of the other, and no placed event starts before the channel anchor. -/
def Obligations.PlacedEventsStandInOrder : Prop :=
  ∀ (es : List EventRec) (anchor held : Option Nat),
    ((resolve es anchor held).filter fun r => r.start.isSome).Pairwise (fun a b => a.stop.getD 0 ≤ b.start.getD 0) ∧
    ∀ r ∈ resolve es anchor held, ∀ x ∈ r.start, ∀ a ∈ anchor, a ≤ x

/-! ## Reset and the events of the house -/

/-- R213, R179, R201, R162: device reset puts every block in its initial state, whatever it was, and samples each
port's rate from its pins. -/
def Obligations.DeviceResetLeavesTheInitialState : Prop :=
  ∀ (pins : RatePins) (s : State), ∃ t, exec (.deviceReset pins) s = .next t ∧ t.storeReady = false ∧
    t.reference = { refState := .unset, h := 0, last := none, pendingSet := none } ∧
    t.house = { rate := .r25, linkTimeout := 50, autoTimeout := 50, leaseTimeout := 250, holdLimit := 360000,
                freeze := false } ∧
    (∀ i, t.chan i = ⟨{ serviceId := none, preferred := .A
                        policy := [.none, .none, .none, .none, .none, .none, .none, .none,
                          .takeAtJunction, .takeNow, .notify, .takeNow, .notify, .takeNow, .notify, .takeNow]
                        guard := 1500, cueLead := 25, horizon := 250, lagLimit := 750, retention := 0, quota := 256 },
                      none⟩) ∧
    t.asRun = { ring := [], nextSeq := some 1, dropped := 0 } ∧ t.houseFlags = [] ∧ t.capture = none ∧
    t.pending = s.pending ∧
    ∀ p, t.port p =
      { receive := .hunting
        baud := match (match p with | .L => pins.l | .A => pins.a | .B => pins.b) with
          | 1 => 230400
          | 2 => 460800
          | 3 => 921600
          | 4 => 1500000
          | 5 => 3000000
          | _ => 115200
        presence := none, inProgress := none, reasons := ⟨false, false, false, false⟩, readPos := none, mark := 0
        follow := false, sent := [] }

/-- R21: at the end of store initialisation the store becomes ready and nothing else changes; with no list yet, READ
STATUS then reports 8,192 free slots. -/
def Obligations.StoreBecomesReady : Prop :=
  ∀ s : State, ∃ t, exec .storeInitialisationEnd s = .next t ∧ t = { s with storeReady := true } ∧
    ((∀ i, s.live i = none) → ∀ p, (t.statusReport p).freeSlots = some 8192)

/-- R5, R6, R8, R208: a pulse half a nominal period or more after the last arrival, and the timebase at its deadline,
each bring an arrival, which advances a defined H by one, standing still at the highest, leaves LOCKED or FLYWHEEL by
its source, and lowers every presence timer; the step into FLYWHEEL records REF_LOST.  A timer that an earlier arrival
had brought to 0 expires first (log entry 3), and an arrival whose moment lies past a deadline that nothing has taken
is one arrival, and one frame (DESIGN CHOICE, log entry 33).  Before its deadline the timebase brings none, and a pulse
sooner than that is a repeat: after a pulse arrival it is discarded, and after an inserted one it realigns the timebase
and ends a FLYWHEEL.

Where nothing due is left over and no switch is decided before the resolver's work (log entries 3, 4), each channel
takes the arrival as follows.  Hold and lease timers step by one (R79, R89).  With a frame, the followed cursor is that
of the timeline held at H; the due events at the head retire, none while a commit is in flight, the anchor moving to
the end of the last (R66, R70, R72); L is recomputed while Port L is PRESENT, and a channel in MAIN or SAFE is
evaluated where it changed (R112, R117); and a switch frame that is reached is noted (R142, R158).  Under a DR output
an advancing arrival closes the segment of the event that ended, writes the SKIPPED entries and opens the segment of
the event that began (R67, R166 to R168). -/
def Obligations.ArrivalsAdvanceTheHouseFrame : Prop :=
  (∀ (s : State) (moment : Nat) (first : List Nat), s.reference.pendingSet = none →
    let next := arrivalFrame s
    let stepped := fun t : State => ∀ p, (t.port p).presence =
      match (s.port p).presence with
      | some (n + 1) => some n
      | _ => none
    ((∀ la, s.reference.last = some la → nominalPeriod s.house.rate / 2 ≤ moment - la.moment) →
      ∃ t, exec (.housePulse moment first) s = .next t ∧ t.house = s.house ∧ stepped t ∧
        t.reference = if s.reference.refState = .unset then { s.reference with last := some ⟨moment, .pulse⟩ }
          else ⟨.locked, next, some ⟨moment, .pulse⟩, none⟩) ∧
    (timebaseDeadline s.house.rate s.reference.last ≤ moment →
      ∃ t, exec (.insertedArrival moment first) s = .next t ∧ t.house = s.house ∧ stepped t ∧
        (t.reference = if s.reference.refState = .unset then { s.reference with last := some ⟨moment, .timebase⟩ }
          else ⟨.flywheel, next, some ⟨moment, .timebase⟩, none⟩) ∧
        (FaultClass.refLost ∈ t.houseFlags ↔ FaultClass.refLost ∈ s.houseFlags ∨ s.reference.refState = .locked)) ∧
    (moment < timebaseDeadline s.house.rate s.reference.last → exec (.insertedArrival moment first) s = .next s) ∧
    ∀ la, s.reference.last = some la → moment - la.moment < nominalPeriod s.house.rate / 2 →
      exec (.housePulse moment first) s = .next (match la.source with
        | .pulse => s
        | .timebase => { s with reference := { s.reference with
            refState := if s.reference.refState = .flywheel then .locked else s.reference.refState
            last := some ⟨moment, .pulse⟩ } })) ∧
  ∀ (s : State) (moment : Nat) (src : ArrivalSource) (c : Instr), s.reference.pendingSet = none → Quiet s →
    IsArrival s moment [] src c → ∃ t, exec c s = .next t ∧ ∀ i l, s.live i = some l → ∃ l', t.live i = some l' ∧
      let h := arrivalFrame s
      let held := l.hold.map (·.eventId)
      let cur := cursorAt l.events l.timeline h
      let due := if l.inFlight then [] else
        (l.events.zip l.timeline).takeWhile (retireDue h (s.params i).retention held)
      l'.hold = l.hold.map (fun r => { r with timer := r.timer - 1 }) ∧
      l'.batch = l.batch.map (fun b => { b with phase := match b.phase with
        | .opened n => .opened (n - 1)
        | .sealed d g => .sealed d g }) ∧
      (s.reference.refState = .unset → l' = { l with hold := l'.hold, batch := l'.batch }) ∧
      (s.reference.refState ≠ .unset →
        l'.followed = some cur ∧ l'.events = l.events.drop due.length ∧
        l'.anchor = (match due.getLast? with | some x => x.2.stop | none => l.anchor) ∧
        l'.timeline = (if due = [] then l.timeline else resolve l'.events l'.anchor held) ∧
        l'.protectedSet = drawProtected l'.events l'.timeline held (s.params i).guard (some h) ∧
        l'.mirrorRev = l.mirrorRev ∧ l'.sourceRev = l.sourceRev ∧ l'.stale = l.stale ∧ l'.completion = l.completion ∧
        l'.custody.custodian = l.custody.custodian ∧ l'.custody.output = l.custody.output ∧
        l'.custody.m = l.custody.m ∧ l'.custody.s = l.custody.s ∧ l'.custody.a = l.custody.a ∧
        l'.custody.l = (if s.present .L then (match l.custody.behind with
          | some b => decide ((s.params i).lagLimit ≤ h - b)
          | none => false) else l.custody.l) ∧
        EvaluatedOnChange (s.params i) (some h) l.custody l'.custody ∧
        (l'.custody.switchDue = true ↔
          (∃ k, l.custody.state = .taking ∧ l.custody.takeover = some k ∧
            (k.cue.switchFrame ≤ h ∨ h = highestFrame s)) ∨
          ∃ r, l.custody.state = .returning ∧ l.custody.ret = some r ∧ (r.frame ≤ h ∨ h = highestFrame s)) ∧
        (isDrOutput l.custody.output = false ∨ h = s.reference.h →
          l'.segment = l.segment ∧ l'.latestSeq = l.latestSeq) ∧
        (isDrOutput l.custody.output = true → h = s.reference.h + 1 →
          (∀ g, l.segment = some g → ∃ f, l.followed = some (.event f) ∧ f.id = g.eventId) →
          l'.segment = (match cur with
            | .event e => if (l.followed.any fun f => f.onEvent e.id) = true then l.segment
                else some ⟨e.id, h, e.lateness, l.custody.output⟩
            | _ => none) ∧
          ∀ n, (∀ j m, j ≠ i → s.live j = some m → isDrOutput m.custody.output = false) →
            s.asRun.nextSeq = some n → n + (arrivalEntries l h).length ≤ 281474976710655 →
            (arrivalEntries l h).length ≤ 2048 →
            Written i h n (arrivalEntries l h) s t ∧
            l'.latestSeq = if arrivalEntries l h = [] then l.latestSeq else n + (arrivalEntries l h).length - 1))

/-- R17, R18, R111: the next arrival, of a pulse or inserted, decides a pending time set.  With every channel IDLE or in
MAIN and no commit in flight, H takes the set's frame, the reference is LOCKED or FLYWHEEL by the arrival's source, the
requester is answered OK or ADJUSTED, and the behind-since frame of every channel starts afresh; otherwise the set is
discarded with CHANNEL_ACTIVE and the arrival counts as without it.  REF_LOST is recorded exactly on entry to FLYWHEEL
(that an entry from UNSET records it is log entry 8; that an arrival past a deadline that nothing has taken is one
arrival is log entry 33). -/
def Obligations.PendingTimeSetIsDecidedOnTheArrival : Prop :=
  ∀ (s : State) (moment : Nat) (first : List Nat) (src : ArrivalSource) (c : Instr) (ps : PendingSet),
    s.reference.pendingSet = some ps → IsArrival s moment first src c →
    let now : RefState := match src with
      | .pulse => .locked
      | .timebase => .flywheel
    ∃ t a, exec c s = .next t ∧ (t.port ps.port).inProgress = none ∧
      (FaultClass.refLost ∈ t.houseFlags ↔ FaultClass.refLost ∈ s.houseFlags ∨
        (t.reference.refState = .flywheel ∧ s.reference.refState ≠ .flywheel)) ∧
      (s.settleDue.channelActive = false →
        t.reference = ⟨now, ps.frame, some ⟨moment, src⟩, none⟩ ∧
        (t.port ps.port).sent = (s.port ps.port).sent ++
          [⟨3, ps.tag, if ps.adjusted then .adjusted else .ok, a, .timeSet (s.frame ps.frame) now⟩] ∧
        ∀ i l, s.live i = some l → ∃ l', t.live i = some l' ∧
          l'.custody.behind = match l.custody.mainRev with
            | some r => if l.sourceRev < r then some ps.frame else none
            | none => none) ∧
      (s.settleDue.channelActive = true →
        t.reference = (if s.reference.refState = .unset then
            { s.reference with last := some ⟨moment, src⟩, pendingSet := none }
          else ⟨now, arrivalFrame s, some ⟨moment, src⟩, none⟩) ∧
        (t.port ps.port).sent = (s.port ps.port).sent ++ [⟨3, ps.tag, .channelActive, a, .empty⟩])

/-! ## Expiries -/

/-- R78, R79: at the expiry of a hold timer the hold is released at H + guard: the held record takes the hold end, the
channel is resolved without a hold, HOLD_LIMIT is recorded, and custody, log, revisions and the other channels are as
they were.  A timer still running is left alone. -/
def Obligations.HoldLimitReleasesTheHold : Prop :=
  ∀ (n : Nat) (i : Slot) (s : State) (l : Live) (hr : HoldRec), slotOf n = some i → s.live i = some l →
    l.hold = some hr →
    (hr.timer = 0 → ∃ t l', exec (.holdLimit n) s = .next t ∧ t.live i = some l' ∧ l'.hold = none ∧
      l'.events = l.events.map (fun e =>
        if e.id = hr.eventId then { e with holdEnd := some (s.reference.h + (s.params i).guard) } else e) ∧
      l'.timeline = resolve l'.events l.anchor none ∧ l'.mirrorRev = l.mirrorRev ∧ l'.sourceRev = l.sourceRev ∧
      l'.batch = l.batch ∧ l'.segment = l.segment ∧ l'.latestSeq = l.latestSeq ∧
      l'.custody.state = l.custody.state ∧ l'.custody.custodian = l.custody.custodian ∧
      l'.custody.output = l.custody.output ∧ FaultClass.holdLimit ∈ l'.flags ∧ t.params i = s.params i ∧
      OthersKept i s t ∧ SystemKept s t ∧ PortsKept s t ∧ t.asRun = s.asRun) ∧
    (hr.timer ≠ 0 → exec (.holdLimit n) s = .next s)

/-- R90: at the expiry of an OPEN batch's lease timer the batch, its buffer and the lease go, and LEASE_EXPIRED is
recorded; nothing else of the channel or of the others changes.  A timer still running is left alone. -/
def Obligations.LeaseExpiryEndsTheBatch : Prop :=
  ∀ (n : Nat) (i : Slot) (s : State) (l : Live) (b : Batch) (k : Nat), slotOf n = some i → s.live i = some l →
    l.batch = some b → b.phase = .opened k →
    (k = 0 → ∃ t, exec (.leaseExpired n) s = .next t ∧
      t.live i = some { l with batch := none, flags := addFlag .leaseExpired l.flags } ∧ t.params i = s.params i ∧
      FaultClass.leaseExpired ∈ addFlag .leaseExpired l.flags ∧
      OthersKept i s t ∧ SystemKept s t ∧ PortsKept s t ∧ t.asRun = s.asRun ∧ t.houseFlags = s.houseFlags) ∧
    (k ≠ 0 → exec (.leaseExpired n) s = .next s)

/-- R110, R112, R117, R127, R157: when Port L becomes ABSENT, M of every in-service channel is 1 and its L stays as it
was, a channel in MAIN or SAFE being evaluated where M changed; every pending return is cancelled, in slot order, back
to DR with RETURN_CANCELLED, a SWITCH entry of reason CANCEL without cue number, and CUSTODY_CHANGED at all three
ports; LINE_ERROR is recorded, and no output or custodian moves.  A timer still running is left alone. -/
def Obligations.LinkAbsenceMarksEveryChannel : Prop :=
  ∀ s : State, CustodyLaw s →
    (s.portL.presence = some 0 → ∃ t, exec (.presenceExpiry .L) s = .next t ∧ t.present .L = false ∧
      FaultClass.lineError ∈ t.houseFlags ∧ SystemKept s t ∧
      (∀ i l, s.live i = some l → ∃ l', t.live i = some l' ∧ l'.custody.m = true ∧ l'.custody.l = l.custody.l ∧
        l'.custody.s = l.custody.s ∧ l'.custody.a = l.custody.a ∧ l'.custody.custodian = l.custody.custodian ∧
        l'.custody.output = l.custody.output ∧ l'.events = l.events ∧ l'.batch = l.batch ∧ l'.segment = l.segment ∧
        EvaluatedOnChange (s.params i) s.houseFrame l.custody l'.custody ∧
        (l.custody.state = .returning →
          l'.custody.state = .dr ∧ l'.custody.ret = none ∧ FaultClass.returnCancelled ∈ l'.flags ∧
          CustodyChangeRaised t) ∧
        (l.custody.state = .dr ∨ l.custody.state = .taking → l'.custody.state = l.custody.state)) ∧
      let cancelled := slots.filter fun i => decide (s.custodyState i = .returning)
      ∀ n, s.asRun.nextSeq = some n → n + cancelled.length ≤ 281474976710655 →
        t.asRun.nextSeq = some (n + cancelled.length) ∧
        ((cancelled.zipIdx n).map fun x => (⟨x.2, x.1.val, s.service x.1, s.reference.h, s.house.rate,
          .switch (s.output x.1) (s.output x.1) .cancel none⟩ : LogEntry)) <:+ t.asRun.ring ∧
        ∀ x ∈ cancelled.zipIdx n, ∀ l', t.live x.1 = some l' → l'.latestSeq = x.2) ∧
    ∀ p, (s.port p).presence ≠ some 0 → exec (.presenceExpiry p) s = .next s

/-- R124, R125: when the custodian of a channel in DR becomes ABSENT, CUSTODIAN_ABSENT is recorded and the output
stays; with the other automation port PRESENT a swap to it starts at H + lead, and otherwise the channel stays in DR
and a SWITCH entry with reason CUSTODIAN_LOST is written.  In TAKING toward the other port, and in RETURNING, it is
recorded alone (R124).  A takeover toward the lost port goes to the other, where it may, under a new cue at H + lead;
else it is a miss at once, and with no port left to retry toward the takeover ends, in SAFE where M is 1 and the output
was MAIN (R145 to R147).  Channels in MAIN and SAFE, and channels in DR under the other port, are as they were. -/
def Obligations.CustodianAbsenceStartsASwap : Prop :=
  ∀ (d : DrPort) (s : State), (s.port (drPort d)).presence = some 0 →
    ∃ t, exec (.presenceExpiry (drPort d)) s = .next t ∧ t.present (drPort d) = false ∧ SystemKept s t ∧
      (∀ i l, s.live i = some l →
        l.custody.state = .main ∨ l.custody.state = .safe ∨
          (l.custody.state = .dr ∧ l.custody.custodian = some (drPort (otherDr d))) → t.live i = some l) ∧
      (∀ i l, s.live i = some l → l.custody.state = .dr → l.custody.custodian = some (drPort d) →
        ∃ l', t.live i = some l' ∧ FaultClass.custodianAbsent ∈ l'.flags ∧
          l'.custody.custodian = l.custody.custodian ∧ l'.custody.output = l.custody.output ∧
          l'.events = l.events ∧ l'.segment = l.segment ∧
          (s.present (drPort (otherDr d)) = true → l'.custody.state = .taking ∧ CustodyChangeRaised t ∧
            ∃ k, l'.custody.takeover = some k ∧ k.prevState = .dr ∧ k.origin = .swap ∧ k.mode = .now ∧
              k.target = otherDr d ∧ k.attempt = 1 ∧
              k.cue.switchFrame = s.reference.h + (s.params i).cueLead) ∧
          (s.present (drPort (otherDr d)) = false → l'.custody = l.custody ∧
            ((∀ j m, j ≠ i → s.live j = some m → m.custody.custodian ≠ some (drPort d) ∧
                ∀ k, m.custody.takeover = some k → k.target ≠ d) →
              ∀ n, s.asRun.nextSeq = some n → l'.latestSeq = n ∧ t.asRun.ring.getLast? =
                some ⟨n, i.val, s.service i, s.reference.h, s.house.rate,
                  .switch l.custody.output l.custody.output .custodianLost none⟩))) ∧
      (∀ i l, s.live i = some l → l.custody.custodian = some (drPort d) →
        l.custody.state = .returning ∨
          (l.custody.state = .taking ∧ ∃ k, l.custody.takeover = some k ∧ k.target ≠ d) →
        t.live i = some { l with flags := addFlag .custodianAbsent l.flags }) ∧
      ∀ i l k, s.live i = some l → l.custody.state = .taking → l.custody.takeover = some k → k.target = d →
        (k.prevState ≠ .dr → s.present (drPort (otherDr d)) = true →
          ∃ k', t.live i = some { l with custody := { l.custody with
              cueCounter := k'.cue.number, takeover := some k', switchDue := false } } ∧
            k'.target = otherDr d ∧ k'.attempt = k.attempt ∧ k'.firstChoice = k.firstChoice ∧
            k'.prevState = k.prevState ∧ k'.prevOutput = k.prevOutput ∧ k'.origin = k.origin ∧ k'.mode = k.mode ∧
            k'.cue.number = (if l.custody.cueCounter < 65535 then l.custody.cueCounter + 1 else 1) ∧
            k'.cue.switchFrame = s.reference.h + (s.params i).cueLead ∧
            k'.cue.state = if l.inFlight then .computing else .issued) ∧
        (s.present (drPort (otherDr d)) = false ∨ (k.prevState = .dr ∧ k.firstChoice = d) →
          ∃ l', t.live i = some l' ∧ FaultClass.cueMissed ∈ l'.flags ∧ l'.events = l.events ∧
            l'.custody.takeover = none ∧ l'.custody.cueCounter = l.custody.cueCounter ∧
            l'.custody.state = (if l'.custody.output = .safe then .safe else k.prevState) ∧
            if l.custody.output = .main ∧ k.prevOutput = .main ∧ l.custody.m = true then
              l'.custody.output = .safe ∧ l'.custody.custodian = none ∧ FaultClass.safeEntry ∈ l'.flags
            else l'.custody.output = l.custody.output ∧ l'.custody.custodian = l.custody.custodian)

/-! ## Commits -/

/-- R103, R104: a commit that passes its validation raises the mirror revision by one, takes the declared source
revision of a Port L batch, installs the trial list, resolves it, retires exactly what is then due at its head (R70,
R72), ends the batch, and answers the CLOSE BATCH where it still waits, with the list's length at that moment (log
entry 43); custodian, output, log and the other channels are as they were.  R104, R111, R112, R117: at the end a Port L
commit that has caught up clears behind-since, and with it L where Port L is PRESENT, and a channel in MAIN or SAFE is
evaluated once where a condition changed.  R105: its steps may be taken one at a time; the commit stays in flight until
the last, the old timeline stands until the second, and a cue still COMPUTING is computed at the last.  (That the last
two steps are one act is log entry 27.) R98, R101: each kind of entry has its checks, in order, and its effect on the
trial, and a RESYNC keeps the list through the last protected event.  (That an ill-formed record counts under its first
four characters, so that a RESYNC drops it where they name a kept event, is log entry 31.) -/
def Obligations.PassedCommitIsApplied : Prop :=
  (∀ (n : Nat) (i : Slot) (s : State) (l : Live) (b : Batch) (d g : Option Nat) (tr : Trial), slotOf n = some i →
    s.live i = some l → l.batch = some b → b.phase = .sealed d g → l.completion = none →
    validate s.house.rate (s.params i) l s.houseFrame b = .ok tr →
    let held := l.hold.map (·.eventId)
    let es := applyWritten (l.mirrorRev + 1) l.events tr.events
    let due := match s.houseFrame with
      | some h => (es.zip (resolve es l.anchor held)).takeWhile (retireDue h (s.params i).retention held)
      | none => []
    ∃ t l', exec (.commitCompletion ⟨n, .whole⟩) s = .next t ∧ t.live i = some l' ∧ l'.mirrorRev = l.mirrorRev + 1 ∧
      l'.sourceRev = (if b.port = .L then d.getD 0 else l.sourceRev) ∧
      l'.stale = (if b.port = .L ∧ b.kind = .resync then false else l.stale) ∧
      l'.custody.s = (if l'.stale = l.stale then l.custody.s else l'.stale) ∧
      l'.custody.behind = (match b.port, l.custody.mainRev with
        | .L, some r => if r ≤ l'.sourceRev then none else l.custody.behind
        | _, _ => l.custody.behind) ∧
      l'.custody.l = (if l'.custody.behind = l.custody.behind ∨ s.present .L = false then l.custody.l else false) ∧
      l'.custody.m = l.custody.m ∧ l'.custody.a = l.custody.a ∧
      EvaluatedOnChange (s.params i) s.houseFrame l.custody l'.custody ∧
      l'.events = es.drop due.length ∧
      l'.anchor = (match due.getLast? with | some x => x.2.stop | none => l.anchor) ∧
      l'.timeline = resolve l'.events l'.anchor held ∧ l'.hold = l.hold ∧ l'.batch = none ∧ l'.completion = none ∧
      l'.custody.custodian = l.custody.custodian ∧ l'.custody.output = l.custody.output ∧ t.params i = s.params i ∧
      OthersKept i s t ∧ SystemKept s t ∧ t.asRun = s.asRun ∧ t.houseFlags = s.houseFlags ∧
      (g = none → PortsKept s t) ∧
      ∀ tag, g = some tag → (t.port b.port).inProgress = none ∧
        (t.port b.port).sent = (s.port b.port).sent ++
          [⟨9, tag, if 0 < tr.adjusted then .adjusted else .ok, t.attention b.port,
            .committed l'.mirrorRev l'.sourceRev l'.events.length tr.adjusted
              (if b.kind = .resync then some tr.dropped else none)⟩]) ∧
  (∀ (n : Nat) (i : Slot) (s : State) (l : Live) (b : Batch) (d g : Option Nat), slotOf n = some i →
    s.live i = some l → l.batch = some b → b.phase = .sealed d g →
    let held := l.hold.map (·.eventId)
    (∀ tr, l.completion = none → validate s.house.rate (s.params i) l s.houseFrame b = .ok tr →
      ∃ c, exec (.commitCompletion ⟨n, .oneStep⟩) s = .next (s.setLive i { l with completion := some c }) ∧
        c.stage = .stored (applyWritten (l.mirrorRev + 1) l.events tr.events) ∧ c.revBefore = l.mirrorRev ∧
        c.lengthBefore = l.events.length) ∧
    (∀ c es, l.completion = some c → c.stage = .stored es →
      ∃ l', exec (.commitCompletion ⟨n, .oneStep⟩) s = .next (s.setLive i l') ∧ l'.events = es ∧
        l'.timeline = resolve es l.anchor held ∧ l'.mirrorRev = c.revBefore + 1 ∧ l'.timelineRev = c.revBefore + 1 ∧
        l'.followed = s.houseFrame.map (cursorAt es (resolve es l.anchor held)) ∧ l'.batch = l.batch ∧
        l'.completion = some { c with stage := .resolved } ∧ l'.sourceRev = l.sourceRev ∧ l'.stale = l.stale) ∧
    (∀ c, l.completion = some c → c.stage = .resolved →
      ∃ l', exec (.commitCompletion ⟨n, .oneStep⟩) s = .next (s.setLive i l') ∧ l'.batch = l.batch ∧
        l'.completion = some { c with stage := .retired } ∧ l'.sourceRev = l.sourceRev ∧ l'.stale = l.stale ∧
        l'.events = (match s.houseFrame with
          | some h => l.events.drop
              ((l.events.zip l.timeline).takeWhile (retireDue h (s.params i).retention held)).length
          | none => l.events)) ∧
    (∀ c, l.completion = some c → c.stage = .retired →
      ∃ t l', exec (.commitCompletion ⟨n, .oneStep⟩) s = .next t ∧ t.live i = some l' ∧ l'.batch = none ∧
        l'.completion = none ∧ l'.sourceRev = c.sourceRev ∧ l'.stale = c.stale ∧ l'.events = l.events ∧
        l'.timeline = l.timeline ∧
        ∀ k, l.custody.state = .taking → l.custody.takeover = some k → k.cue.state = .computing →
          l'.custody.takeover = some { k with cue := { k.cue with
            state := .issued, body := some (cueBodyOf held (cursorAt l.events l.timeline k.cue.switchFrame)) } }) ∧
    ∀ t1 t2 t3, exec (.commitCompletion ⟨n, .oneStep⟩) s = .next t1 →
      exec (.commitCompletion ⟨n, .oneStep⟩) t1 = .next t2 → exec (.commitCompletion ⟨n, .oneStep⟩) t2 = .next t3 →
      exec (.commitCompletion ⟨n, .whole⟩) s = exec (.commitCompletion ⟨n, .oneStep⟩) t3) ∧
  (∀ (rate : HouseRate) (t : Trial) (rec : StagedRecord) (r : EventRec) (adj : Bool) (id : Nat),
    let present := fun (n : Nat) => ∃ e ∈ t.events, e.id = n
    let with_ := fun (es : List EventRec) => Except.ok (ε := Status)
      ({ t with events := es, adjusted := t.adjusted + if adj then 1 else 0 } : Trial)
    (readRecord rate rec = none → (∀ pl, applyEdit rate t (.insert pl rec) = .error .badField) ∧
      applyEdit rate t (.replace id rec) = .error .badField) ∧
    (readRecord rate rec = some (r, adj) →
      (¬present id → applyEdit rate t (.insert (some id) rec) = .error .notFound) ∧
      (present id → present r.id → applyEdit rate t (.insert (some id) rec) = .error .duplicateId) ∧
      (present r.id → applyEdit rate t (.insert none rec) = .error .duplicateId) ∧
      (¬present r.id → applyEdit rate t (.insert none rec) = with_ (r :: t.events)) ∧
      (¬present r.id → ∀ pre e post, t.events = pre ++ e :: post → e.id = id → (∀ x ∈ pre, x.id ≠ id) →
        applyEdit rate t (.insert (some id) rec) = with_ (pre ++ e :: r :: post)) ∧
      (r.id ≠ id → applyEdit rate t (.replace id rec) = .error .badField) ∧
      (r.id = id → ¬present id → applyEdit rate t (.replace id rec) = .error .notFound) ∧
      (r.id = id → r.holdEnd = none ∧ ∀ pre e post, t.events = pre ++ e :: post → e.id = id →
        (∀ x ∈ pre ++ post, x.id ≠ id) → applyEdit rate t (.replace id rec) = with_ (pre ++ r :: post))) ∧
    (¬present id → applyEdit rate t (.delete id) = .error .notFound) ∧
    ∀ pre e post, t.events = pre ++ e :: post → e.id = id → (∀ x ∈ pre ++ post, x.id ≠ id) →
      applyEdit rate t (.delete id) = .ok { t with events := pre ++ post }) ∧
  ∀ (rate : HouseRate) (kept : List EventRec) (t : Trial) (pl : Option Nat) (rec : StagedRecord) (id : Nat) (l : Live),
    applyResync rate kept t (.replace id rec) = .error .badField ∧
    applyResync rate kept t (.delete id) = .error .badField ∧
    ((∃ e ∈ kept, e.id = recordId rec) →
      applyResync rate kept t (.insert pl rec) = .ok { t with dropped := t.dropped + 1 }) ∧
    ((∀ e ∈ kept, e.id ≠ recordId rec) →
      (readRecord rate rec = none → applyResync rate kept t (.insert pl rec) = .error .badField) ∧
      ∀ r adj, readRecord rate rec = some (r, adj) →
        ((∃ e ∈ t.events, e.id = r.id) → applyResync rate kept t (.insert pl rec) = .error .duplicateId) ∧
        ((∀ e ∈ t.events, e.id ≠ r.id) → applyResync rate kept t (.insert pl rec) =
          .ok { t with events := t.events ++ [r], adjusted := t.adjusted + if adj then 1 else 0 })) ∧
    (l.custody.state ≠ .taking → l.custody.state ≠ .dr → l.custody.state ≠ .returning → keptEvents l = []) ∧
    (l.protectedSet = [] → keptEvents l = []) ∧
    (l.custody.state = .taking ∨ l.custody.state = .dr ∨ l.custody.state = .returning →
      ∀ p pre e post, l.protectedSet.getLast? = some p → l.events = pre ++ e :: post → e.id = p.contents.id →
        (∀ x ∈ pre, x.id ≠ e.id) → keptEvents l = pre ++ [e])

/-- R33, R102: a refused commit leaves the revisions, and of the list all but what is then due at its head (R70, R72);
it ends the batch, answers with the refusal and its details where the CLOSE BATCH still waits, and sets the stale flag
exactly for a Port L batch overrun, or off its revision in MAIN; a channel in MAIN or SAFE is evaluated where the flag
changed its S (R117).  R97: the checks of the batch as a whole come first, in order.  R98, R101: then its entries
build the trial, each on what those before it have left, and the first that fails is the outcome, named by its index,
kind and id.  R99: then QUOTA.  R62, R100: then, in TAKING, DR and RETURNING, PROTECTED. (The dropped count of a
refusal is the count so far, DEDUCED, log entry 20; the id named for an ill-formed record is its first four
characters, DESIGN CHOICE, log entry 31; which event PROTECTED names where the rule leaves it open is log entry 12 and
left open here.) -/
def Obligations.RefusedCommitLeavesTheMirror : Prop :=
  (∀ (n : Nat) (i : Slot) (s : State) (l : Live) (b : Batch) (d g : Option Nat) (e : CommitError), slotOf n = some i →
    s.live i = some l → l.batch = some b → b.phase = .sealed d g → l.completion = none →
    validate s.house.rate (s.params i) l s.houseFrame b = .error e →
    let held := l.hold.map (·.eventId)
    let due := match s.houseFrame with
      | some h => (l.events.zip l.timeline).takeWhile (retireDue h (s.params i).retention held)
      | none => []
    ∃ t l', exec (.commitCompletion ⟨n, .whole⟩) s = .next t ∧ t.live i = some l' ∧ l'.mirrorRev = l.mirrorRev ∧
      l'.sourceRev = l.sourceRev ∧ l'.events = l.events.drop due.length ∧
      l'.anchor = (match due.getLast? with | some x => x.2.stop | none => l.anchor) ∧ l'.hold = l.hold ∧
      l'.batch = none ∧ l'.completion = none ∧
      l'.stale = (l.stale || decide (b.port = .L ∧
        (e.status = .batchOverrun ∨ (e.status = .revisionGap ∧ l.custody.state = .main)))) ∧
      l'.custody.s = (if l'.stale = l.stale then l.custody.s else l'.stale) ∧
      l'.custody.behind = (match b.port, l.custody.mainRev with
        | .L, some r => if r ≤ l.sourceRev then none else l.custody.behind
        | _, _ => l.custody.behind) ∧
      l'.custody.l = (if l'.custody.behind = l.custody.behind ∨ s.present .L = false then l.custody.l else false) ∧
      l'.custody.m = l.custody.m ∧ l'.custody.a = l.custody.a ∧
      EvaluatedOnChange (s.params i) s.houseFrame l.custody l'.custody ∧
      (l'.stale ≠ l.stale → FaultClass.mirrorStale ∈ l'.flags) ∧ (l'.stale = l.stale → l'.flags = l.flags) ∧
      l'.custody.custodian = l.custody.custodian ∧ l'.custody.output = l.custody.output ∧ t.params i = s.params i ∧
      OthersKept i s t ∧ SystemKept s t ∧ t.asRun = s.asRun ∧ t.houseFlags = s.houseFlags ∧
      (g = none → PortsKept s t) ∧
      ∀ tag, g = some tag → (t.port b.port).inProgress = none ∧
        (t.port b.port).sent = (s.port b.port).sent ++ [⟨9, tag, e.status, t.attention b.port,
          .commitRefused e.detail l.mirrorRev l.sourceRev (if b.kind = .resync then some e.dropped else none)⟩]) ∧
  ∀ (rate : HouseRate) (p : ChannelParams) (l : Live) (h : Option Nat) (b : Batch),
    let outcome := validate rate p l h b
    let refused := fun (st : Status) => outcome = .error ⟨st, .none, 0⟩
    let lost := b.port ≠ .L ∧ l.custody.custodian ≠ some b.port
    let off := l.mirrorRev = 4294967295 ∨ (b.kind = .edit ∧ b.base ≠ some l.mirrorRev)
    let below := b.port = .L ∧ b.declared.getD 0 < l.sourceRev
    let start : Trial := match b.kind with
      | .edit => ⟨l.events, 0, 0⟩
      | .resync => ⟨keptEvents l, 0, 0⟩
    let apply := match b.kind with
      | .edit => applyEdit rate
      | .resync => applyResync rate (keptEvents l)
    (lost → refused .notCustodian) ∧
    (¬lost → b.overrun = true → refused .batchOverrun) ∧
    (¬lost → b.overrun = false → off → refused .revisionGap) ∧
    (¬lost → b.overrun = false → ¬off → below → refused .badField) ∧
    (¬lost → b.overrun = false → ¬off → ¬below →
      (∀ pre e post t st, b.entries = pre ++ e :: post → pre.foldlM apply start = .ok t → apply t e = .error st →
        outcome = .error ⟨st, .entry pre.length (entryKind e) (entryId e), t.dropped⟩) ∧
      ∀ t, b.entries.foldlM apply start = .ok t →
        let isProtected := l.custody.state = .taking ∨ l.custody.state = .dr ∨ l.custody.state = .returning
        let held := l.hold.map (·.eventId)
        let trialTl := resolve t.events l.anchor held
        let trialSet := drawProtected t.events trialTl none p.guard h
        let names := fun (id : Nat) => outcome = .error ⟨.protected_, .protected_ id
          (resolvedOf id l.events l.timeline).1 (resolvedOf id t.events trialTl).1
          (resolvedOf id l.events l.timeline).2 (resolvedOf id t.events trialTl).2, t.dropped⟩
        (p.quota < t.events.length → outcome = .error ⟨.quota, .quota t.events.length p.quota, t.dropped⟩) ∧
        (t.events.length ≤ p.quota → ¬isProtected → outcome = .ok t) ∧
        (t.events.length ≤ p.quota → isProtected → l.hold = none →
          (l.protectedSet = trialSet → outcome = .ok t) ∧
          (l.protectedSet ≠ trialSet → ∃ id, names id) ∧
          (∀ pre x post, l.protectedSet = pre ++ x :: post → x ∉ trialSet → (∀ y ∈ pre, y ∈ trialSet) →
            names x.contents.id) ∧
          ((∀ y ∈ l.protectedSet, y ∈ trialSet) → ∀ pre x post, trialSet = pre ++ x :: post → x ∉ l.protectedSet →
            (∀ y ∈ pre, y ∈ l.protectedSet) → names x.contents.id)) ∧
        ∀ hr pre e post, t.events.length ≤ p.quota → isProtected → l.hold = some hr → l.events = pre ++ e :: post →
          e.id = hr.eventId → (∀ x ∈ pre, x.id ≠ hr.eventId) →
          let keeps := ∃ pre' e' post', t.events = pre' ++ e' :: post' ∧ (∀ x ∈ pre', x.id ≠ hr.eventId) ∧
            e'.contents = e.contents ∧
            (resolvedOf hr.eventId t.events trialTl).1 = (resolvedOf hr.eventId l.events l.timeline).1 ∧
            (∀ n, post.head? = some n → post'.head?.map EventRec.contents = some n.contents) ∧
            ∀ x ∈ pre', ∃ y ∈ pre, y.id = x.id
          (keeps → outcome = .ok t) ∧ (¬keeps → ∃ id, names id))

/-! ## Switch frames -/

/-- R114, R143, R144: at its switch frame a READY cue takes the channel to DR under the target, clears its arm, ends
the takeover, and writes a SWITCH entry at that frame as the newest; the other channels are as they were.  R167, R169:
a swap closes the segment of the old DR output first, with its AIRED entry where it aired a frame (none where its first
frame lies beyond the switch frame, log entry 45), and the event that the cursor at the switch frame names opens one
under the new output.  A channel whose switch frame has not come is left alone. -/
def Obligations.ReadyCueSwitchesToItsTarget : Prop :=
  ∀ (n : Nat) (i : Slot) (s : State) (l : Live) (k : Takeover), slotOf n = some i → s.live i = some l →
    l.custody.state = .taking → l.custody.takeover = some k → k.cue.state = .ready →
    (l.custody.switchDue = true → ∃ t l', exec (.switchFrameReached n) s = .next t ∧ t.live i = some l' ∧
      l'.custody.state = .dr ∧ l'.custody.custodian = some (drPort k.target) ∧
      l'.custody.output = drOutput k.target ∧ l'.custody.a = false ∧ l'.custody.takeover = none ∧
      l'.custody.m = l.custody.m ∧ l'.custody.s = l.custody.s ∧ l'.custody.l = l.custody.l ∧
      l'.events = l.events ∧ l'.hold = l.hold ∧ l'.batch = l.batch ∧ CustodyChangeRaised t ∧ PortsKept s t ∧
      OthersKept i s t ∧ SystemKept s t ∧ t.params i = s.params i ∧
      let swapped := isDrOutput l.custody.output = true ∧ l.custody.output ≠ drOutput k.target
      l'.segment = (if l.custody.output = drOutput k.target then l.segment
        else match cursorAt l.events l.timeline k.cue.switchFrame with
          | .event c => some ⟨c.id, k.cue.switchFrame, c.lateness + c.offset, drOutput k.target⟩
          | _ => if isDrOutput l.custody.output then none else l.segment) ∧
      ∀ m, s.asRun.nextSeq = some m →
        let bodies := (if swapped then airedEntries k.cue.switchFrame l.segment else []) ++
          [.switch l.custody.output (drOutput k.target)
            (match k.origin with | .policy => .policy | .manual => .manual | .swap => .swap) (some k.cue.number)]
        m + bodies.length ≤ 281474976710655 →
          Written i k.cue.switchFrame m bodies s t ∧ l'.latestSeq + 1 = m + bodies.length) ∧
    (l.custody.switchDue = false → exec (.switchFrameReached n) s = .next s)

/-- R144, R145, R146: a cue not READY at its switch frame is a miss, recorded as CUE_MISSED; a takeover from MAIN with
the main site lost falls to SAFE at its first miss, with SAFE_ENTRY and a SWITCH entry of reason CUE_MISS.  The third
miss ends the takeover.  An earlier one makes a new cue, under a new number, at H + lead, for the first-choice port if
PRESENT, else, in a takeover not from DR, for the other if PRESENT; with neither, every attempt left is missed at once
and the takeover ends. -/
def Obligations.UnreadyCueIsMissed : Prop :=
  ∀ (n : Nat) (i : Slot) (s : State) (l : Live) (k : Takeover), slotOf n = some i → s.live i = some l →
    l.custody.state = .taking → l.custody.takeover = some k → k.cue.state ≠ .ready → l.custody.switchDue = true →
    let falls := l.custody.output = .main ∧ k.prevOutput = .main ∧ l.custody.m = true
    ∃ t l', exec (.switchFrameReached n) s = .next t ∧ t.live i = some l' ∧ FaultClass.cueMissed ∈ l'.flags ∧
      l'.events = l.events ∧ l'.hold = l.hold ∧ l'.segment = l.segment ∧ OthersKept i s t ∧ SystemKept s t ∧
      (falls → l'.custody.output = .safe ∧ l'.custody.custodian = none ∧ FaultClass.safeEntry ∈ l'.flags ∧
        ∀ m, s.asRun.nextSeq = some m → l'.latestSeq = m ∧ t.asRun.ring.getLast? =
          some ⟨m, i.val, s.service i, s.reference.h, s.house.rate,
            .switch .main .safe .cueMiss (some k.cue.number)⟩) ∧
      (¬falls → l'.custody.output = l.custody.output ∧ l'.custody.custodian = l.custody.custodian ∧
        t.asRun = s.asRun ∧ l'.latestSeq = l.latestSeq) ∧
      let ended := l'.custody.takeover = none ∧ l'.custody.cueCounter = l.custody.cueCounter ∧
        l'.custody.state = if l'.custody.output = .safe then .safe else k.prevState
      let retried := fun (d : DrPort) => l'.custody.state = .taking ∧ ∃ k', l'.custody.takeover = some k' ∧
        k'.attempt = k.attempt + 1 ∧ k'.target = d ∧ k'.firstChoice = k.firstChoice ∧ k'.prevState = k.prevState ∧
        k'.cue.number = (if l.custody.cueCounter < 65535 then l.custody.cueCounter + 1 else 1) ∧
        k'.cue.switchFrame = s.reference.h + (s.params i).cueLead ∧
        k'.cue.state = if l.inFlight then .computing else .issued
      (3 ≤ k.attempt → ended) ∧
      (k.attempt < 3 → s.present (drPort k.firstChoice) = true → retried k.firstChoice) ∧
      (k.attempt < 3 → s.present (drPort k.firstChoice) = false → k.prevState ≠ .dr →
        s.present (drPort (otherDr k.firstChoice)) = true → retried (otherDr k.firstChoice)) ∧
      (k.attempt < 3 → s.present (drPort k.firstChoice) = false →
        k.prevState = .dr ∨ s.present (drPort (otherDr k.firstChoice)) = false → ended)

/-- R158, R167, R169: at the switch frame of a return the channel goes to MAIN under Port L, its segment is closed with
its AIRED entry where it aired a frame (log entry 45), the return record goes, and then a SWITCH entry with reason
RETURN is written at that frame as the newest; the other channels are as they were. A channel whose switch frame has
not come is left alone. -/
def Obligations.ReturnSwitchesToMain : Prop :=
  ∀ (n : Nat) (i : Slot) (s : State) (l : Live) (r : ReturnRec), slotOf n = some i → s.live i = some l →
    l.custody.state = .returning → l.custody.ret = some r → isDrOutput l.custody.output = true →
    (l.custody.switchDue = true → ∃ t l', exec (.returnSwitchFrame n) s = .next t ∧ t.live i = some l' ∧
      l'.custody.state = .main ∧ l'.custody.custodian = some .L ∧ l'.custody.output = .main ∧ l'.custody.ret = none ∧
      l'.segment = none ∧ l'.custody.m = l.custody.m ∧ l'.custody.s = l.custody.s ∧ l'.custody.l = l.custody.l ∧
      l'.custody.a = l.custody.a ∧ l'.events = l.events ∧ CustodyChangeRaised t ∧ PortsKept s t ∧
      OthersKept i s t ∧ SystemKept s t ∧ t.params i = s.params i ∧
      ∀ m, s.asRun.nextSeq = some m →
        let bodies := airedEntries r.frame l.segment ++ [.switch l.custody.output .main .return_ none]
        m + bodies.length ≤ 281474976710655 →
          Written i r.frame m bodies s t ∧ l'.latestSeq + 1 = m + bodies.length) ∧
    (l.custody.switchDue = false → exec (.returnSwitchFrame n) s = .next s)

/-! ## Lines and ports -/

/-- R205: a bad frame is answered BAD_FRAME with code 0 and tag 0, whatever request is in progress, and LINE_ERROR is
recorded in no channel's flag set; presence and the request in progress stand.  After a body length above 2,048 the line
is discarded until idle, and otherwise hunted. -/
def Obligations.BadFrameIsAnsweredAndRecorded : Prop :=
  ∀ (p : Port) (cause : BadFrameCause) (s : State), hears (s.port p).receive = true →
    ∃ t, exec (.badFrame p cause) s = .next t ∧ FaultClass.lineError ∈ t.houseFlags ∧
      t.port p = { s.port p with
        receive := if cause = .length then .discarding else .hunting
        reasons := (t.port p).reasons
        sent := (s.port p).sent ++ [⟨0, 0, .badFrame, s.attention p, .empty⟩] } ∧
      (∀ q, q ≠ p → t.port q = { s.port q with reasons := (t.port q).reasons }) ∧
      (∀ j, t.chan j = s.chan j) ∧ SystemKept s t ∧ t.asRun = s.asRun

/-- R205, R212: a discarding line hunts again when it is idle, and a line in a break when it returns to mark; on any
other line these change nothing.  On a line that discards or stands in a break no request and no bad frame is taken (the
part ignores what stands there, DEDUCED, log entry 19). -/
def Obligations.LinesResumeHunting : Prop :=
  ∀ (p : Port) (s : State),
    exec (.lineIdle p) s = .next (if (s.port p).receive = .discarding then
      s.setPort p { s.port p with receive := .hunting } else s) ∧
    exec (.lineReturnsToMark p) s = .next (if (s.port p).receive = .inBreak then
      s.setPort p { s.port p with receive := .hunting } else s) ∧
    (hears (s.port p).receive = false → (∀ cause, exec (.badFrame p cause) s = .next s) ∧
      ∀ (c : Instr) (hd : Head) (code : Nat), requestOf c = some (hd, code) → hd.port = p → exec c s = .next s)

/-- R18, R96, R141, R211, R212: a break, and PORT RESET even while a request is in progress, act on what is kept for
the port: its request in progress, event reasons, read position and follow flag go, a pending set of it is withdrawn,
its OPEN batches end, the reply of its SEALED one is abandoned, and its READY cues return to ISSUED.  Its presence, its
mark, every custody and the other ports are kept.  PORT RESET restarts the presence timer first and is answered OK
after; that its reply carries the attention set as its body is log entry 23 (DEDUCED). -/
def Obligations.PortResetActsOnThePortAlone : Prop :=
  (∀ (p : Port) (s : State), (s.port p).receive ≠ .inBreak → exec (.lineBreak p) s = .next (s.resetPortOf p .inBreak)) ∧
  (∀ (hd : Head) (s : State), hears (s.port hd.port).receive = true → s.present hd.port = true →
    ∃ t, t = (s.restartPresence hd.port).resetPortOf hd.port .hunting ∧
      exec (.portReset hd (.fields ())) s =
        .next (t.reply hd.port 2 hd.tag .ok (.attentionSet (t.attention hd.port)))) ∧
  ∀ (p : Port) (rcv : Receive) (s t : State), t = s.resetPortOf p rcv →
    t.port p = { s.port p with receive := rcv, inProgress := none, reasons := ⟨false, false, false, false⟩,
                               readPos := none, follow := false } ∧
    (∀ q, q ≠ p → t.port q = s.port q) ∧
    t.reference = { s.reference with pendingSet := s.reference.pendingSet.filter fun ps => decide (ps.port ≠ p) } ∧
    t.house = s.house ∧ t.storeReady = s.storeReady ∧ t.asRun = s.asRun ∧ t.houseFlags = s.houseFlags ∧
    t.capture = s.capture ∧ (∀ i, t.params i = s.params i) ∧ (∀ i, s.live i = none → t.live i = none) ∧
    ∀ i l, s.live i = some l → ∃ b k, t.live i = some { l with batch := b, custody := { l.custody with takeover := k } } ∧
      (∀ b', l.batch = some b' → b'.port ≠ p → b = l.batch) ∧ (l.batch = none → b = none) ∧
      (∀ b' n, l.batch = some b' → b'.port = p → b'.phase = .opened n → b = none) ∧
      (∀ b' d g, l.batch = some b' → b'.port = p → b'.phase = .sealed d g → b = some { b' with phase := .sealed d none }) ∧
      k = l.custody.takeover.map fun x =>
        if drPort x.target = p ∧ x.cue.state = .ready then { x with cue := { x.cue with state := .issued } } else x

/-- R109 to R112, R117, R210: an accepted PRESENCE of Port L gives each channel the last entry under its service ID,
ignores the rest, and sets, keeps or clears its behind-since frame at each of its entries in order; M is then the
inverse of the health flag on every channel and L what the behind-since frame gives, a channel in MAIN or SAFE is
evaluated once where they changed, no output or custodian moves, and the answer is OK with both counts.  One of more
than 32 entries or with a healthy flag other than 0 and 1 applies none and is answered BAD_FIELD.  From Port A or B it
is answered OK without counts, whatever its body. -/
def Obligations.PresenceReportsTheMainSite : Prop :=
  (∀ (tag : Nat) (es : List PresenceEntry) (s : State), Open s .L → es.length ≤ 32 →
    (∀ e ∈ es, e.healthy.isSome = true) →
    ∃ t, exec (.presence ⟨.L, tag⟩ (.fields es)) s = .next t ∧ SystemKept s t ∧ t.asRun = s.asRun ∧
      Replied s t ⟨.L, tag⟩ 1 .ok
        (.presence (some ((es.filter fun e => (s.slotOfService e.service).isSome).length,
            (es.filter fun e => (s.slotOfService e.service).isNone).length))
          s.house.linkTimeout s.reference.refState s.reportedH) ∧
      ∀ i l, s.live i = some l → ∃ l', t.live i = some l' ∧ l'.custody.m = !l'.custody.healthy ∧
        l'.custody.s = l.custody.s ∧ l'.custody.a = l.custody.a ∧ l'.custody.custodian = l.custody.custodian ∧
        l'.custody.output = l.custody.output ∧ l'.events = l.events ∧
        l'.custody.behind = (es.filter fun e => decide (s.slotOfService e.service = some i)).foldl (fun b e =>
          if s.reference.refState = .unset ∨ e.mainRev ≤ l.sourceRev then none
          else some (b.getD s.reference.h)) l.custody.behind ∧
        l'.custody.l = (match l'.custody.behind with
          | some b => decide ((s.params i).lagLimit ≤ s.reference.h - b)
          | none => false) ∧
        EvaluatedOnChange (s.params i) s.houseFrame l.custody l'.custody ∧
        ((∀ e ∈ es, s.slotOfService e.service ≠ some i) → l'.custody.healthy = l.custody.healthy ∧
          l'.custody.mainRev = l.custody.mainRev) ∧
        ∀ before e after, es = before ++ e :: after → s.slotOfService e.service = some i →
          (∀ e' ∈ after, s.slotOfService e'.service ≠ some i) →
          l'.custody.healthy = e.healthy.getD false ∧ l'.custody.mainRev = some e.mainRev) ∧
  (∀ (tag : Nat) (es : List PresenceEntry) (s : State), Ready s .L →
    (32 < es.length ∨ ∃ e ∈ es, e.healthy = none) →
    exec (.presence ⟨.L, tag⟩ (.fields es)) s = .next ((s.restartPresence .L).reply .L 1 tag .badField .empty)) ∧
  ∀ (d : DrPort) (tag : Nat) (b : Body (List PresenceEntry)) (s : State), Ready s (drPort d) →
    exec (.presence ⟨drPort d, tag⟩ b) s = .next ((s.restartPresence (drPort d)).reply (drPort d) 1 tag .ok
      (.presence none s.house.autoTimeout s.reference.refState s.reportedH))

/-! ## The house and the Channel Table -/

/-- R17: SET TIME from an automation port is refused BUSY while a set is pending, BAD_TIME for a time that R16 refuses,
and CHANNEL_ACTIVE, in that order; otherwise the set becomes pending and its request stays in progress, with no reply
yet. -/
def Obligations.SetTimeBecomesPending : Prop :=
  ∀ (hd : Head) (x : SchedTime) (s : State), Ready s hd.port → hd.port ≠ .L →
    exec (.setTime hd (.fields x)) s = .next (
      let s1 := s.restartPresence hd.port
      if s.reference.pendingSet.isSome then s1.reply hd.port 3 hd.tag .busy .empty
      else match toFrame s.house.rate x with
        | none => s1.reply hd.port 3 hd.tag .badTime .empty
        | some c =>
          if s.channelActive then s1.reply hd.port 3 hd.tag .channelActive .empty
          else ({ s1 with reference := { s.reference with pendingSet := some ⟨c.1, hd.port, hd.tag, c.2⟩ } }).setPort
            hd.port { s1.port hd.port with inProgress := some ⟨3, hd.tag⟩ })

/-- R9, R182, R183, R198: CONFIGURE HOUSE with every value in range, no channel in service and no pending set that its
rate would disturb sets each given parameter and keeps the rest; a changed rate leaves the reference UNSET with H = 0
and the last arrival as it was, a changed freeze option decides the frozen flag of a captured fault, and nothing else
changes.  With a channel in service it is refused CHANNEL_ACTIVE, and with a set pending and another rate given BUSY.
-/
def Obligations.ConfigureHouseSetsTheParameters : Prop :=
  ∀ (hd : Head) (f : HouseFields) (s : State), Ready s hd.port → hd.port ≠ .L → houseMalformed f s.house = false →
    ((∃ i, (s.live i).isSome = true) → exec (.configureHouse hd (.fields f)) s =
      .next ((s.restartPresence hd.port).reply hd.port 4 hd.tag .channelActive .empty)) ∧
    ((∀ i, s.live i = none) → s.reference.pendingSet.isSome = true → (∃ r, f.rate = .give (some r) ∧ r ≠ s.house.rate) →
      exec (.configureHouse hd (.fields f)) s =
        .next ((s.restartPresence hd.port).reply hd.port 4 hd.tag .busy .empty)) ∧
    ((∀ i, s.live i = none) →
      (s.reference.pendingSet = none ∨ ∀ r, f.rate = .give (some r) → r = s.house.rate) →
      ∃ t, exec (.configureHouse hd (.fields f)) s = .next t ∧
        t.house = { rate := match f.rate with | .give (some r) => r | _ => s.house.rate
                    linkTimeout := match f.linkTimeout with | .give v => v | .keep => s.house.linkTimeout
                    autoTimeout := match f.autoTimeout with | .give v => v | .keep => s.house.autoTimeout
                    leaseTimeout := match f.leaseTimeout with | .give v => v | .keep => s.house.leaseTimeout
                    holdLimit := match f.holdLimit with | .give v => v | .keep => s.house.holdLimit
                    freeze := match f.freeze with | .give (some v) => v | _ => s.house.freeze } ∧
        t.reference = (if t.house.rate = s.house.rate then s.reference
          else { s.reference with refState := .unset, h := 0 }) ∧
        t.capture = (if t.house.freeze = s.house.freeze then s.capture
          else s.capture.map fun c => { c with frozen := t.house.freeze }) ∧
        t.channels = s.channels ∧ t.storeReady = s.storeReady ∧ t.asRun = s.asRun ∧ t.houseFlags = s.houseFlags ∧
        ReasonsKept s t ∧ Replied s t hd 4 .ok (.house t.house t.reference.refState))

/-- R184: CONFIGURE CHANNEL from an automation port is refused, in the order of its table, BAD_FIELD, BUSY,
CHANNEL_ACTIVE, CONFIG_INVALID, DUPLICATE_SERVICE with the holder, and QUOTA by the sum or by the list's length; what
it leaves is each given value, and for the rest the value that stood.  (That the last two concern a channel to be in
service alone is log entry 34; that the limit met is sent as a name is log entry 49.)  R187, R188, R189: accepted, it
has one of four forms.  An IDLE channel stays IDLE with its parameters stored, or enters service in MAIN under Port L,
empty, stale and unarmed; a channel in MAIN without an open segment leaves service, taking with it the read positions
that name it, or has its parameters changed in place, the protected set drawn again at a changed guard and L recomputed
at a changed lag limit, and nothing else changed where neither is.  No other channel changes and no as-run entry is
written. -/
def Obligations.ConfigureChannelHasFourForms : Prop :=
  (∀ (hd : Head) (f : ChannelFields) (i : Slot) (s : State), Ready s hd.port → hd.port ≠ .L → s.storeReady = true →
    slotOf f.channel = some i →
    let p : ChannelParams :=
      { serviceId := match f.serviceId with
          | .keep => (s.params i).serviceId
          | .give n => if n = 0 then none else some n
        preferred := match f.preferred with | .give (some d) => d | _ => (s.params i).preferred
        policy := match f.policy with
          | .keep => (s.params i).policy
          | .give as => as.map fun a => a.getD .none
        guard := match f.guard with | .give v => v | .keep => (s.params i).guard
        cueLead := match f.cueLead with | .give v => v | .keep => (s.params i).cueLead
        horizon := match f.horizon with | .give v => v | .keep => (s.params i).horizon
        lagLimit := match f.lagLimit with | .give v => v | .keep => (s.params i).lagLimit
        retention := match f.retention with | .give v => v | .keep => (s.params i).retention
        quota := match f.quota with | .give v => v | .keep => (s.params i).quota }
    let refused := fun (st : Status) (body : ReplyBody) => exec (.configureChannel hd (.fields f)) s =
      .next ((s.restartPresence hd.port).reply hd.port 5 hd.tag st body)
    let bad := f.reserved = true ∨ f.inService = none ∨ f.preferred = .give none ∨
      (∃ as, f.policy = .give as ∧ none ∈ as) ∨ paramsInRange p = false ∨
      (f.inService = some true ∧ p.serviceId = none)
    let busy := ∃ l, s.live i = some l ∧ l.inFlight = true
    let active := ∃ l, s.live i = some l ∧ (l.custody.state ≠ .main ∨ l.batch.isSome = true)
    let holds := fun (j : Slot) => j ≠ i ∧ (s.live j).isSome = true ∧ (s.params j).serviceId = p.serviceId
    let sum := s.quotaSum - (if (s.live i).isSome then (s.params i).quota else 0) + p.quota
    let length := match s.live i with | some l => l.events.length | none => 0
    (bad → refused .badField .empty) ∧
    (¬bad → busy → refused .busy .empty) ∧
    (¬bad → ¬busy → active → refused .channelActive .empty) ∧
    (¬bad → ¬busy → ¬active → paramsRelated p = false → refused .configInvalid .empty) ∧
    (¬bad → ¬busy → ¬active → paramsRelated p = true → f.inService = some true →
      (∀ j, holds j → (∀ j', j' < j → ¬holds j') → refused .duplicateService (.serviceHeldBy j.val)) ∧
      ((∀ j, ¬holds j) →
        (8192 < sum → refused .quota (.quotaRefused sum length .sum)) ∧
        (sum ≤ 8192 → p.quota < length → refused .quota (.quotaRefused sum length .listLength)) ∧
        (sum ≤ 8192 → length ≤ p.quota → s.checkConfigureChannel hd f = .ok (i, p, true)))) ∧
    (¬bad → ¬busy → ¬active → paramsRelated p = true → f.inService = some false →
      s.checkConfigureChannel hd f = .ok (i, p, false))) ∧
  ∀ (hd : Head) (f : ChannelFields) (i : Slot) (p : ChannelParams) (enter : Bool) (s : State), Ready s hd.port →
    s.checkConfigureChannel hd f = .ok (i, p, enter) →
    (s.live i = none → enter = false → ∃ t, exec (.configureChannel hd (.fields f)) s = .next t ∧
      t.chan i = ⟨p, none⟩ ∧ OthersKept i s t ∧ SystemKept s t ∧ t.asRun = s.asRun ∧ ReasonsKept s t ∧
      Replied s t hd 5 .ok (.configured i.val .idle p s.quotaSum none none)) ∧
    (s.live i = none → enter = true → ∃ t l', exec (.configureChannel hd (.fields f)) s = .next t ∧
      t.chan i = ⟨p, some l'⟩ ∧ l'.events = [] ∧ l'.mirrorRev = 0 ∧ l'.sourceRev = 0 ∧ l'.stale = true ∧
      l'.timeline = [] ∧ l'.anchor = none ∧ l'.timelineRev = 0 ∧ l'.protectedSet = [] ∧
      l'.followed = (if s.reference.refState = .unset then none else some .noTimeline) ∧ l'.hold = none ∧
      l'.batch = none ∧ l'.completion = none ∧ l'.segment = none ∧ l'.latestSeq = 0 ∧ l'.flags = [] ∧
      l'.custody = { state := .main, custodian := some .L, output := .main, m := !s.present .L, s := true, l := false
                     a := false, healthy := true, mainRev := none, behind := none, lastEval := none, cueCounter := 0
                     takeover := none, ret := none, switchDue := false } ∧
      OthersKept i s t ∧ SystemKept s t ∧ t.asRun = s.asRun ∧ OnlyCustodyRaised s t ∧
      Replied s t hd 5 .ok (.configured i.val .main p (s.quotaSum + p.quota) none none)) ∧
    (∀ l, s.live i = some l → enter = false → l.segment = none →
      ∃ t, exec (.configureChannel hd (.fields f)) s = .next t ∧ t.chan i = ⟨p, none⟩ ∧ OthersKept i s t ∧
        SystemKept s t ∧ t.asRun = s.asRun ∧ OnlyCustodyRaised s t ∧
        (∀ q, (t.port q).readPos = (s.port q).readPos.filter fun r => decide (r.slot ≠ i)) ∧
        (t.port hd.port).sent = (s.port hd.port).sent ++ [⟨5, hd.tag, .ok, t.attention hd.port,
          .configured i.val .idle p t.quotaSum none (some l.events.length)⟩]) ∧
    (∀ l, s.live i = some l → enter = true → p.guard = (s.params i).guard → p.lagLimit = (s.params i).lagLimit →
      ∃ t, exec (.configureChannel hd (.fields f)) s = .next t ∧ t.chan i = ⟨p, some l⟩ ∧ OthersKept i s t ∧
        SystemKept s t ∧ t.asRun = s.asRun ∧ ReasonsKept s t ∧
        Replied s t hd 5 .ok (.configured i.val l.custody.state p t.quotaSum none none)) ∧
    (∀ l, s.live i = some l → enter = true →
      ∃ t l' out, exec (.configureChannel hd (.fields f)) s = .next t ∧ t.chan i = ⟨p, some l'⟩ ∧ OthersKept i s t ∧
        SystemKept s t ∧ t.asRun = s.asRun ∧ l'.events = l.events ∧ l'.timeline = l.timeline ∧ l'.hold = l.hold ∧
        l'.protectedSet = (if p.guard = (s.params i).guard then l.protectedSet else
          drawProtected l.events l.timeline (l.hold.map (·.eventId)) p.guard s.houseFrame) ∧
        l'.custody.l = (if p.lagLimit ≠ (s.params i).lagLimit ∧ s.present .L = true then (match l.custody.behind with
            | some b => decide (p.lagLimit ≤ s.reference.h - b)
            | none => false) else l.custody.l) ∧
        l'.custody.m = l.custody.m ∧ l'.custody.s = l.custody.s ∧ l'.custody.a = l.custody.a ∧
        l'.custody.custodian = l.custody.custodian ∧ l'.custody.output = l.custody.output ∧
        (l'.custody.l = l.custody.l → out = none ∧ l'.custody = l.custody) ∧
        (l'.custody.l ≠ l.custody.l → l.custody.state = .main → ∃ e, l'.custody.lastEval = some e ∧ out = some e.outcome ∧
          e.index = (if l.custody.m then 8 else 0) + (if l.custody.s then 4 else 0) + (if l'.custody.l then 2 else 0) +
            (if l.custody.a then 1 else 0) ∧ e.action = p.policy.getD e.index .none) ∧
        Replied s t hd 5 .ok (.configured i.val l'.custody.state p t.quotaSum out none))

/-! ## Batches -/

/-- R84, R85: OPEN BATCH on a channel without a lease holder, from Port L or from the custodian with EDIT, with a
buffer free, opens an empty batch of the kind and base given, with its timer at the lease timeout; nothing else
changes, and one buffer fewer is free.  A RESYNC from an automation port is refused NOT_PERMITTED, whatever channel it
names; then a channel with a commit in flight BUSY (R95), with a lease holder LEASE_HELD with the holder; without one,
NOT_CUSTODIAN from an automation port that is not the custodian, and NO_BUFFER with no buffer free. -/
def Obligations.OpenBatchTakesLeaseAndBuffer : Prop :=
  (∀ (hd : Head) (ch : Nat) (base : Option Nat) (s : State), Ready s hd.port → s.storeReady = true → hd.port ≠ .L →
    exec (.openBatch hd (.fields ⟨ch, some .resync, base⟩)) s =
      .next ((s.restartPresence hd.port).reply hd.port 7 hd.tag .notPermitted .empty)) ∧
  ∀ (hd : Head) (ch : Nat) (kind : BatchKind) (base : Option Nat) (i : Slot) (l : Live) (s : State), Ready s hd.port →
    s.storeReady = true → (kind = .edit → base.isSome = true) → (kind = .resync → hd.port = .L) →
    Names s hd.port ch i l →
    let request := exec (.openBatch hd (.fields ⟨ch, some kind, base⟩)) s
    let refused := fun (st : Status) (body : ReplyBody) =>
      request = .next ((s.restartPresence hd.port).reply hd.port 7 hd.tag st body)
    (l.inFlight = true → refused .busy .empty) ∧
    (∀ b, l.inFlight = false → l.batch = some b → refused .leaseHeld (.leaseHolder (some b.port))) ∧
    (l.batch = none → hd.port ≠ .L → l.custody.custodian ≠ some hd.port → refused .notCustodian .empty) ∧
    (l.batch = none → hd.port = .L ∨ l.custody.custodian = some hd.port → s.freeBuffers = 0 → refused .noBuffer .empty) ∧
    (l.batch = none → hd.port = .L ∨ l.custody.custodian = some hd.port → 0 < s.freeBuffers →
      ∃ t b, request = .next t ∧ t.live i = some { l with batch := some b } ∧
        b = { port := hd.port, kind := kind, base := if kind = .edit then base else none, entries := [], received := 0,
              overrun := false, phase := .opened s.house.leaseTimeout } ∧
        t.freeBuffers + 1 = s.freeBuffers ∧ t.params i = s.params i ∧ OthersKept i s t ∧ SystemKept s t ∧
        t.asRun = s.asRun ∧ ReasonsKept s t ∧
        Replied s t hd 7 .ok (.batchOpened i.val (s.service i) l.mirrorRev l.sourceRev s.house.leaseTimeout
          (s.freeBuffers - 1)))

/-- R87, R88, R89: ADD ENTRIES of 1 to 16 entries to the port's OPEN batch appends them, keeps the newest 64, sets the
overrun flag where one went, raises the saturating received count, restarts the lease timer, and changes nothing else.
-/
def Obligations.AddEntriesHoldsTheNewest : Prop :=
  ∀ (hd : Head) (ch : Nat) (es : List Entry) (i : Slot) (l : Live) (b : Batch) (s : State), Ready s hd.port →
    s.storeReady = true → Names s hd.port ch i l → l.openBatchOf hd.port = some b → 1 ≤ es.length → es.length ≤ 16 →
    ∃ b', b'.entries = (b.entries ++ es).drop ((b.entries ++ es).length - 64) ∧ b'.entries.length ≤ 64 ∧
      b'.received = min (b.received + es.length) 4294967295 ∧
      (b'.overrun = true ↔ b.overrun = true ∨ 64 < b.entries.length + es.length) ∧
      b'.phase = .opened s.house.leaseTimeout ∧ b'.port = b.port ∧ b'.kind = b.kind ∧ b'.base = b.base ∧
      exec (.addEntries hd (.fields ⟨ch, es, false⟩)) s =
        .next (((s.restartPresence hd.port).setLive i { l with batch := some b' }).reply hd.port 8 hd.tag .ok
          (.entriesHeld b'.entries.length b'.received b'.overrun))

/-- R92, R93: CLOSE BATCH seals the port's OPEN batch, records a Port L request's declared revision and leaves the
request in progress, with no reply yet; ABORT BATCH discards it and is answered with holder none; without an OPEN batch
of the port the one is answered NO_BATCH and the other, on a lease not its own, OK with the holder, without effect. -/
def Obligations.BatchesAreClosedOrAborted : Prop :=
  ∀ (hd : Head) (ch : Nat) (d : Option Nat) (i : Slot) (l : Live) (s : State), Ready s hd.port → s.storeReady = true →
    Names s hd.port ch i l →
    let s1 := s.restartPresence hd.port
    (∀ b, l.openBatchOf hd.port = some b →
      (exec (.closeBatch hd (.fields ⟨ch, d⟩)) s = .next ((s1.setLive i { l with batch := some { b with
          phase := .sealed (if hd.port = .L then d else none) (some hd.tag) } }).setPort hd.port
            { s1.port hd.port with inProgress := some ⟨9, hd.tag⟩ }) ∧
      exec (.abortBatch hd (.fields ch)) s =
        .next ((s1.setLive i { l with batch := none }).reply hd.port 10 hd.tag .ok (.leaseHolder none)))) ∧
    (l.openBatchOf hd.port = none →
      exec (.closeBatch hd (.fields ⟨ch, d⟩)) s = .next (s1.reply hd.port 9 hd.tag .noBatch .empty) ∧
      (l.holder ≠ some hd.port →
        exec (.abortBatch hd (.fields ch)) s = .next (s1.reply hd.port 10 hd.tag .ok (.leaseHolder l.holder))))

/-! ## Reads -/

/-- R35, R36, R37: READ EVENTS from the head or a named event, and READ NEXT EVENTS after the port's position, return
the channel's state and the events from there in list order, up to the count, 16 at most (ADJUSTED), each with its
index, its record and the fields that the list, the anchor and the hold resolve it to, with the more flag where events
follow, and set the read position to the last event returned; nothing else changes. -/
def Obligations.ReadsReturnTheListInOrder : Prop :=
  ∀ (hd : Head) (ch count : Nat) (i : Slot) (l : Live) (pre post : List EventRec) (s : State), Ready s hd.port →
    s.storeReady = true → l.inFlight = false → TimelineLaw s → 1 ≤ count → l.events = pre ++ post →
    let status := if 16 < count then Status.adjusted else Status.ok
    let got := post.take (min count 16)
    let outcome := fun (c : Instr) (code : Nat) (otherwise : Option ReadPos) =>
      ∃ t es, exec c s = .next t ∧ OnlyPort hd.port s t ∧
        t.port hd.port = { s.port hd.port with
          receive := .hunting
          presence := some (s.timeoutOf hd.port)
          readPos := match got.getLast? with
            | some e => some ⟨i, some e.id⟩
            | none => otherwise
          sent := (s.port hd.port).sent ++ [⟨code, hd.tag, status, t.attention hd.port, .events
            { slot := i.val, service := s.service i, length := l.events.length, quota := (s.params i).quota
              mirrorRev := l.mirrorRev, sourceRev := l.sourceRev, stale := l.stale, returned := got.length
              more := decide (got.length < post.length) } es⟩] } ∧
        es.length = got.length ∧
        ∀ (k : Nat) (e : EventRec), got[k]? = some e → ∃ r,
          (resolve l.events l.anchor (l.hold.map (·.eventId)))[pre.length + k]? = some r ∧
          es[k]? = some {
            index := pre.length + k, record := e
            fixedStart := match e.start with
              | .fixed f _ => some (s.frame f)
              | .follow => none
            holdEnd := e.holdEnd.map s.frame, resolved := r, resolvedStart := r.start.map s.frame }
    (Names s hd.port ch i l → pre = [] →
      outcome (.readEvents hd (.fields ⟨ch, none, count⟩)) 11 (some ⟨i, none⟩)) ∧
    (∀ e rest, Names s hd.port ch i l → post = e :: rest → (∀ x ∈ pre, x.id ≠ e.id) →
      outcome (.readEvents hd (.fields ⟨ch, some e.id, count⟩)) 11 (some ⟨i, none⟩)) ∧
    (∀ x, s.live i = some l → x ∈ pre.getLast? → (∀ y ∈ pre.dropLast, y.id ≠ x.id) →
      (s.port hd.port).readPos = some ⟨i, some x.id⟩ →
      outcome (.readNextEvents hd (.fields count)) 12 (some ⟨i, some x.id⟩)) ∧
    (s.live i = some l → pre = [] → (s.port hd.port).readPos = some ⟨i, none⟩ →
      outcome (.readNextEvents hd (.fields count)) 12 (some ⟨i, none⟩))

/-- R58, R59, R191, R192: READ CURSOR at "now" and at a schedule time is answered with the whole record of R59: the
cursor there from the timeline held, the held event and the protected set at the present H; a moved label with
ADJUSTED, "now" with TIME_UNSET where there is no frame.  READ CHANNEL is answered with the whole record of R192 for
an in-service channel, and for an IDLE slot with its entry, the house, the quota sum and IDLE; while a completion is
under way it shows the mirror state from before the commit (R95).  Neither changes anything but its own port.  That
the free pool slots are then those of the pool as it stands is the model's choice (log entry 27), and so are the slot,
flag and room of an IDLE slot's reply, and the agreed event of a return as its id and offset (log entry 38). -/
def Obligations.CursorAndChannelReadsChangeNothing : Prop :=
  (∀ (hd : Head) (ch : Nat) (i : Slot) (l : Live) (s : State), Ready s hd.port → s.storeReady = true →
    Names s hd.port ch i l →
    let answered := fun (f : FrameSelect) (x : Nat) (st : Status) =>
      let drawn := protectedIdsAt l (s.params i).guard s.houseFrame
      exec (.readCursor hd (.fields ⟨ch, f⟩)) s = .next ((s.restartPresence hd.port).reply hd.port 13 hd.tag st (.cursor
        { slot := i.val, service := s.service i, frame := frameField s.house.rate x, timelineRev := l.timelineRev
          inFlight := l.inFlight, heldEvent := l.hold.map (·.eventId), cursor := cursorAt l.events l.timeline x
          protectedCount := drawn.length, protectedIds := drawn.take 64, protectedMore := decide (64 < drawn.length) }))
    (s.reference.refState ≠ .unset → answered .now s.reference.h .ok) ∧
    (s.reference.refState = .unset → exec (.readCursor hd (.fields ⟨ch, .now⟩)) s =
      .next ((s.restartPresence hd.port).reply hd.port 13 hd.tag .timeUnset .empty)) ∧
    ∀ (x : SchedTime) (c : Nat × Bool), toFrame s.house.rate x = some c →
      answered (.time x) c.1 (if c.2 then .adjusted else .ok)) ∧
  ∀ (hd : Head) (n : Nat) (i : Slot) (s : State), Ready s hd.port →
    (hd.port ≠ .L ∧ slotOf n = some i) ∨ (hd.port = .L ∧ s.slotOfService n = some i) →
    let answered := fun (st : CustodyState) (v : Option LiveReport) =>
      exec (.readChannel hd (.fields n)) s = .next ((s.restartPresence hd.port).reply hd.port 6 hd.tag .ok (.channel
        { slot := i.val, inService := v.isSome, params := s.params i, house := s.house, quotaSum := s.quotaSum
          room := 8192 - s.quotaSum, state := st, live := v }))
    (s.live i = none → answered .idle none) ∧
    ∀ l, s.live i = some l → answered l.custody.state (some
      { length := match l.completion with
          | some c => c.lengthBefore
          | none => l.events.length
        mirrorRev := match l.completion with
          | some c => c.revBefore
          | none => l.mirrorRev
        sourceRev := l.sourceRev, stale := l.stale, freeSlots := s.freeSlots
        timelineRev := l.timelineRev, anchor := l.anchor.map s.frame, hold := l.hold
        holder := l.batch.map (·.port), closing := if l.inFlight then l.batch.map (·.port) else none
        custodian := l.custody.custodian, output := l.custody.output, m := l.custody.m, s := l.custody.s
        l := l.custody.l, a := l.custody.a, healthy := l.custody.healthy, mainRev := l.custody.mainRev
        behind := l.custody.behind.map s.frame, lastEval := l.custody.lastEval
        evalFrame := match l.custody.lastEval with
          | some e => e.frame.map s.frame
          | none => none
        cueCounter := l.custody.cueCounter, latestSeq := l.latestSeq
        segment := match l.segment with
          | some g => some (g.eventId, g.output)
          | none => none
        takeover := if l.custody.state = .taking then l.custody.takeover.map fun k =>
            { target := k.target, switchFrame := s.frame k.cue.switchFrame, number := k.cue.number
              state := k.cue.state, attempt := k.attempt }
          else none
        ret := if l.custody.state = .returning then l.custody.ret.map fun r => (s.frame r.frame, r.eventId, r.offset)
          else none })

/-- R129, R139, R199: MATCH is answered with exactly the in-service channels whose every field the pattern allows, in
slot order; FETCH CUE from the target with the cue as it stands, READY or not, and BUSY while it is COMPUTING; READ
FAULTS with the capture record and every flag set that is not empty; none of them changes anything but its own port.
-/
def Obligations.MatchCueAndFaultReadsChangeNothing : Prop :=
  (∀ (hd : Head) (f : MatchFields) (s : State), Ready s hd.port → patternMalformed f = false →
    ∃ cs : List (Nat × Nat), exec (.matchChannels hd (.fields f)) s =
        .next ((s.restartPresence hd.port).reply hd.port 23 hd.tag .ok (.matched cs.length cs)) ∧
      cs.Pairwise (fun a b => a.1 < b.1) ∧
      ∀ (i : Slot) (v : Nat), (i.val, v) ∈ cs ↔ v = s.service i ∧ ∃ l, s.live i = some l ∧
        (f.state = .any ∨ f.state = .is l.custody.state) ∧
        (f.custodian = .any ∨ f.custodian = .is l.custody.custodian) ∧
        (f.output = .any ∨ f.output = .is l.custody.output) ∧ (f.m = .any ∨ f.m = .is l.custody.m) ∧
        (f.s = .any ∨ f.s = .is l.custody.s) ∧ (f.l = .any ∨ f.l = .is l.custody.l) ∧
        (f.a = .any ∨ f.a = .is l.custody.a) ∧ (f.held = .any ∨ f.held = .is l.hold.isSome) ∧
        (f.inFlight = .any ∨ f.inFlight = .is l.inFlight) ∧ (f.holder = .any ∨ f.holder = .is l.holder)) ∧
  (∀ (hd : Head) (n : Nat) (i : Slot) (l : Live) (k : Takeover) (s : State), Ready s hd.port → hd.port ≠ .L →
    Names s hd.port n i l → l.custody.state = .taking → l.custody.takeover = some k → drPort k.target = hd.port →
    (k.cue.state = .computing → exec (.fetchCue hd (.fields n)) s =
      .next ((s.restartPresence hd.port).reply hd.port 16 hd.tag .busy
        (.cueWait k.cue.number (s.frame k.cue.switchFrame) k.attempt))) ∧
    ∀ b, k.cue.state ≠ .computing → k.cue.body = some b → exec (.fetchCue hd (.fields n)) s =
      .next ((s.restartPresence hd.port).reply hd.port 16 hd.tag .ok (.cue
        { number := k.cue.number, slot := i.val, service := s.service i, target := k.target, origin := k.origin
          mode := k.mode, attempt := k.attempt, switchFrame := s.frame k.cue.switchFrame, body := b
          state := k.cue.state, updates := k.cue.updates, takenAt := s.reportedH
          fixedStart := (l.events.find? fun e => decide ((match b with
              | .event c _ => some c.id
              | .gap _ next _ _ => some next
              | .ended last _ => some last
              | .noTimeline => none) = some e.id)).bind fun e => match e.start with
            | .fixed f _ => some (s.frame f)
            | .follow => none }))) ∧
  ∀ (hd : Head) (s : State), Ready s hd.port → ∃ r, r.capture = s.capture ∧ r.freeze = s.house.freeze ∧
    r.houseFlags = s.houseFlags ∧ r.count = r.channels.length ∧
    (∀ (i : Slot) (v : Nat) (fs : List FaultClass), (i.val, v, fs) ∈ r.channels ↔
      v = s.service i ∧ fs ≠ [] ∧ ∃ l, s.live i = some l ∧ l.flags = fs) ∧
    exec (.readFaults hd (.fields ())) s =
      .next ((s.restartPresence hd.port).reply hd.port 27 hd.tag .ok (.faults r))

/-! ## Custody -/

/-- R119, R120, R121, R131, R133: a TAKE from an automation port in a set reference, of a channel in MAIN or SAFE, or
in DR under the other port, starts a takeover toward the requester: state TAKING, custodian and output as they were,
the first cue under the next number at the mode's switch frame, with the cursor there as its contents, or COMPUTING
without contents while a commit is in flight (R136), CUSTODY_CHANGED at all three ports; everything else is as it was.
(That every step keeps a cue at its cursor is stated with the timelines.) In an UNSET reference it is refused
TIME_UNSET, and otherwise in TAKING and RETURNING, and in DR under the requester, STATE. -/
def Obligations.TakeStartsATakeover : Prop :=
  ∀ (hd : Head) (d : DrPort) (n : Nat) (mode : TakeMode) (i : Slot) (l : Live) (s : State), Ready s hd.port →
    hd.port = drPort d → Names s hd.port n i l →
    let request := exec (.take hd (.fields ⟨n, some mode⟩)) s
    let refused := fun (st : Status) =>
      request = .next ((s.restartPresence hd.port).reply hd.port 14 hd.tag st .empty)
    (s.reference.refState = .unset → refused .timeUnset) ∧
    (s.reference.refState ≠ .unset → l.custody.state = .taking ∨ l.custody.state = .returning ∨
      (l.custody.state = .dr ∧ l.custody.custodian = some hd.port) → refused .state) ∧
    (s.reference.refState ≠ .unset → l.custody.state ≠ .taking → l.custody.state ≠ .returning →
      ¬(l.custody.state = .dr ∧ l.custody.custodian = some hd.port) →
      ∃ t k, request = .next t ∧
        t.live i = some { l with custody := { l.custody with
          state := .taking, cueCounter := k.cue.number, takeover := some k, switchDue := false } } ∧
        k.prevState = l.custody.state ∧ k.prevOutput = l.custody.output ∧
        k.origin = (if l.custody.state = .dr then .swap else .manual) ∧ k.mode = mode ∧ k.firstChoice = d ∧
        k.target = d ∧ k.attempt = 1 ∧
        k.cue.number = (if l.custody.cueCounter < 65535 then l.custody.cueCounter + 1 else 1) ∧
        k.cue.switchFrame = (match mode with
          | .now => s.reference.h + (s.params i).cueLead
          | .junction => junctionFrame l (s.params i) s.reference.h) ∧
        k.cue.state = (if l.inFlight then .computing else .issued) ∧ k.cue.updates = 0 ∧
        k.cue.body = (if l.inFlight then none else some (match cursorAt l.events l.timeline k.cue.switchFrame with
          | .event c => .event c (decide (l.hold.map (·.eventId) = some c.id))
          | .gap id st x => .gap false id st x
          | .before id st x => .gap true id st x
          | .ended id x => .ended id x
          | .noTimeline => .noTimeline)) ∧
        t.params i = s.params i ∧ OthersKept i s t ∧ SystemKept s t ∧ t.asRun = s.asRun ∧ OnlyCustodyRaised s t ∧
        Replied s t hd 14 .ok (.taken d mode (s.frame k.cue.switchFrame) k.cue.number k.cue.state))

/-- R122: CANCEL TAKE from either automation port ends the takeover: the channel stands at SAFE where its output does,
and otherwise in its previous state, custodian, output and arm as they were; a SWITCH entry with reason CANCEL and the
cue number is written, which opens and closes no segment.  A channel that is not TAKING meets STATE. -/
def Obligations.CancelTakeReturnsToThePreviousState : Prop :=
  ∀ (hd : Head) (n : Nat) (i : Slot) (l : Live) (s : State), Ready s hd.port → hd.port ≠ .L → Names s hd.port n i l →
    (l.custody.state ≠ .taking → exec (.cancelTake hd (.fields n)) s =
      .next ((s.restartPresence hd.port).reply hd.port 15 hd.tag .state .empty)) ∧
    ∀ k, l.custody.state = .taking → l.custody.takeover = some k →
      ∃ t l', exec (.cancelTake hd (.fields n)) s = .next t ∧ t.live i = some l' ∧
        l'.custody = { l.custody with
          state := if l.custody.output = .safe then .safe else k.prevState, takeover := none, switchDue := false } ∧
        l'.segment = l.segment ∧ l'.events = l.events ∧ l'.hold = l.hold ∧ l'.batch = l.batch ∧ l'.flags = l.flags ∧
        t.params i = s.params i ∧ OthersKept i s t ∧ SystemKept s t ∧ CustodyChangeRaised t ∧
        Replied s t hd 15 .ok (.stateAfter l'.custody.state) ∧
        ∀ m, s.asRun.nextSeq = some m → l'.latestSeq = m ∧ t.asRun.ring.getLast? =
          some ⟨m, i.val, s.service i, s.reference.h, s.house.rate,
            .switch l.custody.output l.custody.output .cancel (some k.cue.number)⟩

/-- R138, R140: CUE READY from the target, under the current number of a cue that is not COMPUTING, makes the cue READY
and changes nothing else; under another number it is refused STALE_CUE with the current one, and while the cue is
COMPUTING BUSY.  Where no other channel's cue waits for the target, CUE_PENDING then leaves its attention set. -/
def Obligations.CueReadyReadiesTheCue : Prop :=
  ∀ (hd : Head) (n number : Nat) (i : Slot) (l : Live) (k : Takeover) (s : State), Ready s hd.port → hd.port ≠ .L →
    Names s hd.port n i l → l.custody.state = .taking → l.custody.takeover = some k → drPort k.target = hd.port →
    let s1 := s.restartPresence hd.port
    (number ≠ k.cue.number → exec (.cueReady hd (.fields ⟨n, number⟩)) s =
      .next (s1.reply hd.port 17 hd.tag .staleCue (.currentCue k.cue.number))) ∧
    (number = k.cue.number → k.cue.state = .computing → exec (.cueReady hd (.fields ⟨n, number⟩)) s =
      .next (s1.reply hd.port 17 hd.tag .busy .empty)) ∧
    (number = k.cue.number → k.cue.state ≠ .computing →
      ∃ t, exec (.cueReady hd (.fields ⟨n, number⟩)) s = .next t ∧
        t = (s1.setLive i { l with custody := { l.custody with
            takeover := some { k with cue := { k.cue with state := .ready } } } }).reply hd.port 17 hd.tag .ok
              (.cueReady number (s.frame k.cue.switchFrame) k.cue.updates) ∧
        ((∀ j m x, j ≠ i → s.live j = some m → m.custody.takeover = some x → drPort x.target = hd.port →
            x.cue.state = .ready) → (t.attention hd.port).cuePending = false))

/-- R114, R115, R117: ARM takes each given slot once and drops those not in service (log entry 18 for a number above
31); the new set is the given one, or the old with it, without it, or with its members turned over; A of every
in-service channel is then its membership, other conditions, outputs and custodians are as they were, and a channel
whose A did not change is left alone whole.  Each channel in MAIN or SAFE whose A changed is evaluated once, and the
reply carries, in slot order, each channel whose A changed with its evaluation's outcome, none where none was made (the
order is log entry 48). Port L apart, an unknown operation is refused BAD_FIELD. -/
def Obligations.ArmCombinesTheArmSet : Prop :=
  (∀ (hd : Head) (op : ArmOp) (ns : List Nat) (s : State), Ready s hd.port → hd.port ≠ .L →
    ∃ t dropped outcomes, exec (.arm hd (.fields ⟨some op, ns⟩)) s = .next t ∧ SystemKept s t ∧ t.asRun = s.asRun ∧
      Replied s t hd 22 .ok (.armed t.armSet dropped outcomes) ∧
      (∀ n, n ∈ dropped ↔ n ∈ ns ∧ ∀ i : Slot, i.val = n → s.live i = none) ∧
      (∀ i, s.live i = none → t.live i = none) ∧
      outcomes = (slots.filter fun i => decide ((s.live i).map (·.custody.a) ≠ (t.live i).map (·.custody.a))).map
        (fun i => (i.val, if s.custodyState i = .main ∨ s.custodyState i = .safe then
          (t.live i).bind fun l => l.custody.lastEval.map (·.outcome) else none)) ∧
      ∀ i l, s.live i = some l → ∃ l', t.live i = some l' ∧
        EvaluatedOnChange (s.params i) s.houseFrame l.custody l'.custody ∧
        l'.custody.a = (match op with
          | .replace => decide (i.val ∈ ns)
          | .add => l.custody.a || decide (i.val ∈ ns)
          | .remove => l.custody.a && !decide (i.val ∈ ns)
          | .toggle => if i.val ∈ ns then !l.custody.a else l.custody.a) ∧
        l'.custody.m = l.custody.m ∧ l'.custody.s = l.custody.s ∧ l'.custody.l = l.custody.l ∧
        l'.custody.custodian = l.custody.custodian ∧ l'.custody.output = l.custody.output ∧
        (l'.custody.a = l.custody.a → l' = l) ∧
        (l.custody.state ≠ .main → l.custody.state ≠ .safe →
          l' = { l with custody := { l.custody with a := l'.custody.a } })) ∧
  ∀ (hd : Head) (ns : List Nat) (s : State), Ready s hd.port → hd.port ≠ .L →
    exec (.arm hd (.fields ⟨none, ns⟩)) s =
      .next ((s.restartPresence hd.port).reply hd.port 22 hd.tag .badField .empty)

/-- R117, R118: an evaluation is made in MAIN and SAFE alone; it records the frame, the index 8·M + 4·S + 2·L + A, the
table's action at that index, and the outcome.  NONE and NOTIFY move no custody; a take starts toward the preferred port
if PRESENT, else the other if PRESENT, at the switch frame of its mode, NOW or JUNCTION; otherwise, or in an UNSET
reference, it starts not at all and POLICY_NOTICE is raised at Ports A and B. -/
def Obligations.EvaluationActsByThePolicyTable : Prop :=
  ∀ (i : Slot) (l : Live) (s : State), s.live i = some l →
    (l.custody.state ≠ .main → l.custody.state ≠ .safe → s.evaluate i = (s, none)) ∧
    (l.custody.state = .main ∨ l.custody.state = .safe →
      let index := (if l.custody.m then 8 else 0) + (if l.custody.s then 4 else 0) + (if l.custody.l then 2 else 0) +
        (if l.custody.a then 1 else 0)
      let action := (s.params i).policy.getD index .none
      let preferred := (s.params i).preferred
      ∃ t out l', s.evaluate i = (t, some out) ∧ t.live i = some l' ∧
        l'.custody.lastEval = some ⟨s.houseFrame, index, action, out⟩ ∧
        l'.custody.output = l.custody.output ∧ l'.custody.custodian = l.custody.custodian ∧ OthersKept i s t ∧
        SystemKept s t ∧
        (action = .none → out = .none ∧ l'.custody.state = l.custody.state ∧ t.portA = s.portA ∧ t.portB = s.portB) ∧
        (action = .notify → out = .notified ∧ l'.custody.state = l.custody.state ∧
          t.portA.reasons.policyNotice = true ∧ t.portB.reasons.policyNotice = true) ∧
        (action = .takeNow ∨ action = .takeAtJunction → s.reference.refState = .unset →
          out = .timeUnset ∧ l'.custody.state = l.custody.state ∧
          t.portA.reasons.policyNotice = true ∧ t.portB.reasons.policyNotice = true) ∧
        (action = .takeNow ∨ action = .takeAtJunction → s.reference.refState ≠ .unset →
          (∀ d, (d = preferred ∧ s.present (drPort preferred) = true) ∨
            (d = otherDr preferred ∧ s.present (drPort preferred) = false ∧ s.present (drPort d) = true) →
            out = .takeStarted ∧ l'.custody.state = .taking ∧ ∃ k, l'.custody.takeover = some k ∧ k.target = d ∧
              k.origin = .policy ∧ k.firstChoice = preferred ∧ k.attempt = 1 ∧
              k.mode = (if action = .takeNow then .now else .junction) ∧
              k.cue.switchFrame = (if action = .takeNow then s.reference.h + (s.params i).cueLead
                else junctionFrame l (s.params i) s.reference.h)) ∧
          (s.present .A = false → s.present .B = false → out = .noTarget ∧ l'.custody.state = l.custody.state ∧
            t.portA.reasons.policyNotice = true ∧ t.portB.reasons.policyNotice = true)))

/-! ## Holds and handback -/

/-- R75, R76: HOLD from the custodian of a channel in DR, not held, whose followed cursor is on a LIVE event, holds that
event: any hold end it had goes, the timer starts at the hold limit, the channel is resolved under the hold, and nothing
else changes.  Held already it is refused HELD, and on anything but a LIVE event NOT_LIVE. -/
def Obligations.HoldHoldsTheLiveEvent : Prop :=
  ∀ (hd : Head) (n : Nat) (i : Slot) (l : Live) (s : State), Ready s hd.port → hd.port ≠ .L → Names s hd.port n i l →
    l.custody.custodian = some hd.port → l.custody.state = .dr →
    let refused := fun (st : Status) => exec (.hold hd (.fields n)) s =
      .next ((s.restartPresence hd.port).reply hd.port 18 hd.tag st .empty)
    (l.hold.isSome = true → refused .held) ∧
    (l.hold = none → (∀ c src, l.followed = some (.event c) → c.content ≠ .live src) → refused .notLive) ∧
    ∀ c src, l.hold = none → l.followed = some (.event c) → c.content = .live src →
      ∃ t l', exec (.hold hd (.fields n)) s = .next t ∧ t.live i = some l' ∧
        l'.hold = some ⟨c.id, s.house.holdLimit⟩ ∧
        l'.events = l.events.map (fun e => if e.id = c.id then { e with holdEnd := none } else e) ∧
        l'.timeline = resolve l'.events l.anchor (some c.id) ∧ l'.mirrorRev = l.mirrorRev ∧
        l'.sourceRev = l.sourceRev ∧ l'.custody = l.custody ∧ l'.batch = l.batch ∧ l'.segment = l.segment ∧
        l'.flags = l.flags ∧ t.params i = s.params i ∧ OthersKept i s t ∧ SystemKept s t ∧ t.asRun = s.asRun ∧
        ReasonsKept s t ∧
        Replied s t hd 18 .ok (.heldNow c.id c.offset s.house.holdLimit
          (s.frame (s.reference.h + s.house.holdLimit)))

/-- R77, R78: RELEASE HOLD from the custodian, outside TAKING, of a time that R16 accepts, on a held channel, clamps
T_end into [H + 1, H + guard] and releases the hold there, ADJUSTED where clamped or moved; the held record takes the
hold end and the channel is resolved without a hold.  The reply carries the event, T_end as applied, and the
resolution state and start of the event after it in the new timeline, or neither at the tail (that form is the model's
choice, log entries 14 and 38). Not held, it is answered OK and changes nothing (OK for a moved label too is DESIGN
CHOICE, log entry 41). -/
def Obligations.ReleaseHoldEndsTheHold : Prop :=
  ∀ (hd : Head) (n : Nat) (x : SchedTime) (c : Nat × Bool) (i : Slot) (l : Live) (s : State), Ready s hd.port →
    hd.port ≠ .L → Names s hd.port n i l → l.custody.custodian = some hd.port → l.custody.state ≠ .taking →
    toFrame s.house.rate x = some c →
    (l.hold = none → exec (.releaseHold hd (.fields ⟨n, x⟩)) s =
      .next ((s.restartPresence hd.port).reply hd.port 19 hd.tag .ok .notHeld)) ∧
    ∀ hr, l.hold = some hr →
      let lowest := s.reference.h + 1
      let highest := s.reference.h + (s.params i).guard
      let tEnd := min (max c.1 lowest) highest
      ∃ t l', exec (.releaseHold hd (.fields ⟨n, x⟩)) s = .next t ∧ t.live i = some l' ∧ l'.hold = none ∧
        l'.events = l.events.map (fun e => if e.id = hr.eventId then { e with holdEnd := some tEnd } else e) ∧
        l'.timeline = resolve l'.events l.anchor none ∧ l'.mirrorRev = l.mirrorRev ∧ l'.sourceRev = l.sourceRev ∧
        l'.custody = l.custody ∧ l'.batch = l.batch ∧ l'.segment = l.segment ∧ l'.flags = l.flags ∧
        t.params i = s.params i ∧ OthersKept i s t ∧ SystemKept s t ∧ t.asRun = s.asRun ∧ ReasonsKept s t ∧
        Replied s t hd 19 (if c.2 = true ∨ tEnd ≠ c.1 then .adjusted else .ok)
          (.released hr.eventId (s.frame tEnd)
            ((l'.timeline[(l'.events.findIdx fun e => decide (e.id = hr.eventId)) + 1]?).map fun r =>
              (r.state, r.start.map s.frame)))

/-- R149 to R154: RETURN of a channel in DR that is not held and has no commit in flight, at a T within
[H + lead, H + guard), with Port L's mark at or above the channel's latest entry and the cursor at T on the event and
offset given, writes the return record: state RETURNING, custodian, output, conditions and log as they were,
RETURN_PENDING at the custodian and CUSTODY_CHANGED at all three ports. -/
def Obligations.ReturnIsAcceptedOnAgreement : Prop :=
  ∀ (hd : Head) (n : Nat) (x : SchedTime) (c : Nat × Bool) (id offset : Nat) (cur : EventCursor) (i : Slot) (l : Live)
    (s : State), Ready s hd.port → hd.port = .L → Names s hd.port n i l → 1 ≤ id → id ≤ 4294967295 →
    offset ≤ 4294967295 → l.custody.state = .dr → l.hold = none → l.inFlight = false →
    toFrame s.house.rate x = some c → s.reference.h + (s.params i).cueLead ≤ c.1 →
    c.1 < s.reference.h + (s.params i).guard → l.latestSeq ≤ s.portL.mark →
    cursorAt l.events l.timeline c.1 = .event cur → cur.id = id → cur.offset = offset →
    ∃ t, exec (.handback hd (.fields ⟨n, x, id, offset⟩)) s = .next t ∧
      t.live i = some { l with custody := { l.custody with
        state := .returning
        ret := some { frame := c.1, eventId := id, offset := offset, acceptedAt := s.reference.h
                      markAtAcceptance := s.portL.mark, latestAtAcceptance := l.latestSeq
                      output := l.custody.output }
        switchDue := false } } ∧
      t.params i = s.params i ∧ OthersKept i s t ∧ SystemKept s t ∧ t.asRun = s.asRun ∧ CustodyChangeRaised t ∧
      (∀ q, (t.port q).reasons.returnPending =
        ((s.port q).reasons.returnPending || decide (l.custody.custodian = some q))) ∧
      Replied s t hd 20 (if c.2 then .adjusted else .ok)
        (.returning (s.frame c.1) id offset cur.mediaPosition l.custody.custodian
          (l.custody.custodian.any s.present) s.portL.mark l.latestSeq)

/-- R151, R152, R153: in the order of the checks, RETURN is refused STATE outside DR, HELD, BUSY with a commit in
flight, BAD_TIME for a T refused or out of its window, ASRUN_PENDING with the marks while Port L's mark is below the
channel's latest entry, and CURSOR_MISMATCH with the cursor at T; a refused RETURN changes no channel. -/
def Obligations.ReturnRefusalsComeInOrder : Prop :=
  ∀ (hd : Head) (n : Nat) (x : SchedTime) (id offset : Nat) (i : Slot) (l : Live) (s : State), Ready s hd.port →
    hd.port = .L → Names s hd.port n i l → 1 ≤ id → id ≤ 4294967295 → offset ≤ 4294967295 →
    let answer := fun (st : Status) (body : ReplyBody) => exec (.handback hd (.fields ⟨n, x, id, offset⟩)) s =
      .next ((s.restartPresence hd.port).reply hd.port 20 hd.tag st body)
    (l.custody.state ≠ .dr → answer .state .empty) ∧
    (l.custody.state = .dr → l.hold.isSome = true → answer .held .empty) ∧
    (l.custody.state = .dr → l.hold = none → l.inFlight = true → answer .busy .empty) ∧
    (l.custody.state = .dr → l.hold = none → l.inFlight = false →
      (toFrame s.house.rate x = none → answer .badTime .empty) ∧
      ∀ c, toFrame s.house.rate x = some c →
        (c.1 < s.reference.h + (s.params i).cueLead ∨ s.reference.h + (s.params i).guard ≤ c.1 →
          answer .badTime .empty) ∧
        (s.reference.h + (s.params i).cueLead ≤ c.1 → c.1 < s.reference.h + (s.params i).guard →
          (s.portL.mark < l.latestSeq →
            answer .asRunPending (.asRunPending s.portL.mark l.latestSeq s.asRun.newest)) ∧
          (l.latestSeq ≤ s.portL.mark →
            (∀ e, cursorAt l.events l.timeline c.1 = .event e → e.id ≠ id ∨ e.offset ≠ offset) →
            answer .cursorMismatch (.cursorMismatch (cursorAt l.events l.timeline c.1) (s.frame c.1)))))

/-- R156: CANCEL RETURN from the custodian of a RETURNING channel puts it back in DR: custodian, output and open segment
as they were, the record gone, RETURN_CANCELLED recorded, a SWITCH entry with reason CANCEL and no cue written, and
CUSTODY_CHANGED at all three ports.  From the other automation port it is refused NOT_CUSTODIAN, and in another state
STATE. -/
def Obligations.CancelReturnKeepsTheDrCustodian : Prop :=
  ∀ (hd : Head) (n : Nat) (i : Slot) (l : Live) (s : State), Ready s hd.port → hd.port ≠ .L → Names s hd.port n i l →
    let refused := fun (st : Status) => exec (.cancelReturn hd (.fields n)) s =
      .next ((s.restartPresence hd.port).reply hd.port 21 hd.tag st .empty)
    (l.custody.custodian ≠ some hd.port → refused .notCustodian) ∧
    (l.custody.custodian = some hd.port → l.custody.state ≠ .returning → refused .state) ∧
    ∀ r, l.custody.custodian = some hd.port → l.custody.state = .returning → l.custody.ret = some r →
      ∃ t l', exec (.cancelReturn hd (.fields n)) s = .next t ∧ t.live i = some l' ∧
        l'.custody = { l.custody with state := .dr, ret := none, switchDue := false } ∧ l'.segment = l.segment ∧
        l'.events = l.events ∧ l'.hold = l.hold ∧ l'.batch = l.batch ∧ FaultClass.returnCancelled ∈ l'.flags ∧
        t.params i = s.params i ∧ OthersKept i s t ∧ SystemKept s t ∧ CustodyChangeRaised t ∧
        Replied s t hd 21 .ok (.returnCancelled (s.frame r.frame) .dr) ∧
        ∀ m, s.asRun.nextSeq = some m → l'.latestSeq = m ∧ t.asRun.ring.getLast? =
          some ⟨m, i.val, s.service i, s.reference.h, s.house.rate,
            .switch l.custody.output l.custody.output .cancel none⟩

/-! ## The as-run log, status and faults -/

/-- R162, R174, R175, R176: READ AS-RUN without a set returns, oldest first, the entries above the port's mark, up to
the count, 16 at most (ADJUSTED); in follow mode the mark moves to the last of them, and otherwise stands; nothing
else changes. With a set it returns, oldest first, the matching entries up to the count; it examines to the last of
them, or to the newest where it runs out, and in follow mode the mark moves to the last entry examined; the more flag
says that the last examined is below the newest.  The reply is the whole record of R175, each entry with its frames at
the rate it records.  A refusal of R174 changes nothing and carries the newest and oldest numbers, the full flag and
the dropped count (R162; their order is the model's choice, log entry 44, and the set flag outside 0 and 1 as
BAD_FIELD is log entry 21). -/
def Obligations.ReadAsRunReadsAboveTheMark : Prop :=
  (∀ (hd : Head) (count : Nat) (s : State), Ready s hd.port → LogLaw s → 1 ≤ count →
    let unread := s.asRun.ring.filter fun e => decide ((s.port hd.port).mark < e.seq)
    let got := unread.take (min count 16)
    AsRunAnswered hd count .all s got (got.getLast?.map (·.seq)) (decide (got.length < unread.length))) ∧
  (∀ (hd : Head) (count : Nat) (ms : List Nat) (s : State), Ready s hd.port → 1 ≤ count → 1 ≤ ms.length →
    ms.length ≤ 32 → (hd.port = .L → 0 ∉ ms) → (hd.port ≠ .L → ∀ n ∈ ms, n ≤ 31) →
    let unread := s.asRun.ring.filter fun e => decide ((s.port hd.port).mark < e.seq)
    let matching := unread.filter fun e => decide ((if hd.port = .L then e.service else e.slot) ∈ ms)
    let got := matching.take (min count 16)
    let last := if got.length = min count 16 then got.getLast?.map (·.seq) else unread.getLast?.map (·.seq)
    AsRunAnswered hd count (.members ms) s got last (match last with
      | some n => decide (n < s.asRun.newest)
      | none => false)) ∧
  ∀ (hd : Head) (count : Nat) (set : SetField) (s : State), Ready s hd.port →
    let refused := fun (st : Status) => exec (.readAsRun hd (.fields ⟨count, set⟩)) s =
      .next ((s.restartPresence hd.port).reply hd.port 24 hd.tag st (.asRunRefused s.asRun.newest
        (s.asRun.ring.head?.map (·.seq)) s.asRun.nextSeq.isNone s.asRun.dropped))
    (count = 0 → refused .badField) ∧ (set = .bad → refused .badField) ∧
    ∀ ms, set = .members ms →
      (ms.length = 0 ∨ 32 < ms.length → refused .badField) ∧ (hd.port = .L → 0 ∈ ms → refused .badField) ∧
      (1 ≤ count → 1 ≤ ms.length → ms.length ≤ 32 → hd.port ≠ .L → (∃ n ∈ ms, 31 < n) → refused .unknownChannel)

/-- R177, R178: MARK clamps its value to the newest sequence number, ADJUSTED where it did, sets the port's mark to it
and its follow flag as given, and changes nothing else; ASRUN_WAITING then stands at the port exactly while the value
is below the newest number.  A follow setting other than the two is refused BAD_FIELD. -/
def Obligations.MarkIsClampedToTheNewest : Prop :=
  ∀ (hd : Head) (v : Nat) (s : State), Ready s hd.port →
    (exec (.mark hd (.fields ⟨v, none⟩)) s =
      .next ((s.restartPresence hd.port).reply hd.port 25 hd.tag .badField .empty)) ∧
    ∀ b : Bool, ∃ t, exec (.mark hd (.fields ⟨v, some b⟩)) s = .next t ∧ OnlyPort hd.port s t ∧
      t.port hd.port = { s.port hd.port with
        receive := .hunting
        presence := some (s.timeoutOf hd.port)
        mark := if v ≤ s.asRun.newest then v else s.asRun.newest
        follow := b
        sent := (s.port hd.port).sent ++ [⟨25, hd.tag, if v ≤ s.asRun.newest then .ok else .adjusted,
          t.attention hd.port, .marked (t.port hd.port).mark b s.asRun.newest s.asRun.oldest⟩] } ∧
      ((t.attention hd.port).asRunWaiting = true ↔ v < s.asRun.newest)

/-- R203: READ STATUS reports the port's attention set as it stood and the state of the part, and then clears the four
event reasons of that port; condition reasons stand, and nothing else changes. -/
def Obligations.ReadStatusClearsEventReasons : Prop :=
  ∀ (hd : Head) (s : State), Ready s hd.port → ∃ t r, exec (.readStatus hd (.fields ())) s = .next t ∧
    OnlyPort hd.port s t ∧
    t.port hd.port = { s.port hd.port with
      receive := .hunting
      presence := some (s.timeoutOf hd.port)
      reasons := ⟨false, false, false, false⟩
      sent := (s.port hd.port).sent ++ [⟨26, hd.tag, .ok, s.attention hd.port, .status r⟩] } ∧
    (t.attention hd.port).cuePending = (s.attention hd.port).cuePending ∧
    (t.attention hd.port).asRunWaiting = (s.attention hd.port).asRunWaiting ∧
    r.attention = s.attention hd.port ∧ r.refState = s.reference.refState ∧
    r.frame = (if s.reference.refState = .unset then none else some (s.frame s.reference.h)) ∧
    r.freeSlots = (if s.storeReady then some s.freeSlots else none) ∧ r.freeBuffers = s.freeBuffers ∧
    r.newest = s.asRun.newest ∧ r.captured = s.capture.map (fun c => (c.cls, c.frozen)) ∧
    (r.anyFlag = true ↔ s.houseFlags ≠ [] ∨ ∃ i l, s.live i = some l ∧ l.flags ≠ []) ∧
    r.inService = (slots.filter fun i => (s.live i).isSome).length

/-- R194 to R197: a report adds its class to the flag set it names and to no other, raises FAULT at all three ports
where that set lacked it or the capture record changed, and is captured when the record is empty, or when its class is
of higher priority than the captured one and the freeze option is off; a report of the captured class sets the repeat
flag, and a frozen fault stands. -/
def Obligations.ReportsFlagAndCapture : Prop :=
  ∀ (r : FaultReport) (s t : State), t = s.report r →
    SystemKept s t ∧ PortsKept s t ∧ t.asRun = s.asRun ∧
    (∀ i l, s.live i = some l →
      t.live i = some { l with flags := (if r.slot = some i then addFlag r.cls l.flags else l.flags) }) ∧
    (∀ x fs, x ∈ addFlag r.cls fs ↔ x = r.cls ∨ x ∈ fs) ∧
    t.houseFlags = (if r.slot = none then addFlag r.cls s.houseFlags else s.houseFlags) ∧
    (s.capture = none → t.capture = some ⟨r.cls, r.slot.map fun i => (i.val, s.service i), r.port, r.frame, r.detail,
      false, s.house.freeze⟩) ∧
    (∀ c, s.capture = some c →
      t.capture = if c.cls = r.cls then some { c with repeated := true }
        else if priority r.cls < priority c.cls ∧ s.house.freeze = false then
          some ⟨r.cls, r.slot.map fun i => (i.val, s.service i), r.port, r.frame, r.detail, false, false⟩
        else some c) ∧
    ((s.flagged r = false ∨ t.capture ≠ s.capture) → ∀ q, (t.port q).reasons.fault = true) ∧
    (s.flagged r = true → t.capture = s.capture → ReasonsKept s t)

/-- R200: CLEAR FAULTS of at most 32 slots, each 0..31 and none with a commit in flight, empties the flag set of each
named channel in service and, when the capture setting is yes, the capture record and the house flag set; it raises no
reason and changes nothing else.  A commit in flight on a named channel refuses it BUSY with the first such slot. -/
def Obligations.ClearFaultsClearsTheNamed : Prop :=
  ∀ (hd : Head) (ns : List Nat) (capture : Bool) (s : State), Ready s hd.port → hd.port ≠ .L → ns.length ≤ 32 →
    (∀ n ∈ ns, n ≤ 31) →
    (∀ before n after, ns = before ++ n :: after → s.inFlightAt n = true → (∀ m ∈ before, s.inFlightAt m = false) →
      exec (.clearFaults hd (.fields ⟨ns, some capture⟩)) s =
        .next ((s.restartPresence hd.port).reply hd.port 28 hd.tag .busy (.busySlot n))) ∧
    ((∀ n ∈ ns, s.inFlightAt n = false) → ∃ t slots, exec (.clearFaults hd (.fields ⟨ns, some capture⟩)) s = .next t ∧
      (∀ i l, s.live i = some l → t.live i = some { l with flags := if i.val ∈ ns then [] else l.flags }) ∧
      (∀ i, s.live i = none → t.live i = none) ∧ (∀ i, t.params i = s.params i) ∧
      t.capture = (if capture then none else s.capture) ∧
      t.houseFlags = (if capture then [] else s.houseFlags) ∧ SystemKept s t ∧ t.asRun = s.asRun ∧ ReasonsKept s t ∧
      (∀ n, n ∈ slots ↔ n ∈ ns ∧ ∃ i : Slot, i.val = n ∧ (s.live i).isSome = true) ∧
      Replied s t hd 28 .ok (.cleared slots capture))

end
end

