-- ==== Sys2Proof/Machine/Layout.lean ====
section
/-! DEFINITION. What a reply is on the line: status codes (R214), the reply frame, the records a reply carries and the
bodies of replies (R215, R216).  A quantity that R215 and R216 give no size has a size of its own that the model leaves
free (log entry 14). -/

namespace Sys2Proof.Machine

/-! ## Codes (R214, R215) -/

/-- The code of a reply status (R214); 25 is not used. -/
def Status.code : Status → Nat
  | .ok => 0
  | .adjusted => 1
  | .busy => 2
  | .portBusy => 3
  | .badFrame => 4
  | .unknownRequest => 5
  | .notPermitted => 6
  | .badField => 7
  | .badTime => 8
  | .timeUnset => 9
  | .unknownChannel => 10
  | .unknownService => 11
  | .notInService => 12
  | .channelActive => 13
  | .duplicateService => 14
  | .configInvalid => 15
  | .leaseHeld => 16
  | .noBuffer => 17
  | .noBatch => 18
  | .revisionGap => 19
  | .batchOverrun => 20
  | .duplicateId => 21
  | .notFound => 22
  | .protected_ => 23
  | .quota => 24
  | .state => 26
  | .notCustodian => 27
  | .notTarget => 28
  | .staleCue => 29
  | .cursorMismatch => 30
  | .asRunPending => 31
  | .held => 32
  | .notLive => 33
  | .positionLost => 34

/-! R215 numbers the values of an enumeration in the order in which the reference first lists them.  Which list that is
is the model's reading for each (DEDUCED, log entry 26): the first rule that lists the whole enumeration. -/

/-- Reference states (R2). -/
def refCodes : List RefState := [.unset, .locked, .flywheel]
/-- Resolution states (R39). -/
def resCodes : List ResState := [.resolved, .skipped, .unresolved, .suspended]
/-- States of a secondary (R56). -/
def secondaryCodes : List SecondaryState := [.upcoming, .active]
/-- Cue states, in the order of R130: R121, which comes before it, names ISSUED and COMPUTING alone (DEDUCED, log entry
26). -/
def cueStateCodes : List CueState := [.computing, .issued, .ready]
/-- Origins of a takeover (R107). -/
def originCodes : List Origin := [.policy, .manual, .swap]
/-- Outcomes of an evaluation (R117). -/
def outcomeCodes : List EvalOutcome := [.none, .notified, .takeStarted, .noTarget, .timeUnset]
/-- Reasons of a SWITCH entry, in the order of R164 (DEDUCED, log entry 26). -/
def reasonCodes : List SwitchReason := [.policy, .manual, .swap, .cueMiss, .cancel, .return_, .custodianLost]
/-- Causes of a miss (R145). -/
def causeCodes : List MissCause := [.notReady, .computing, .targetLost, .noTarget]
/-- Details of LINE_ERROR, in the order of R193 (DEDUCED, log entry 26). -/
def lineCodes : List LineErrorCause := [.badFrame, .linkAbsent, .logFull]
/-- The limit met in a QUOTA reply of CONFIGURE CHANNEL.  R184 does not say whether it is sent as a number or as a name:
the model sends a code, quota sum 0 and list length 1 (DESIGN CHOICE, log entry 49). -/
def limitCodes : List QuotaLimit := [.sum, .listLength]
/-- Kinds of a batch entry (R82). -/
def entryKindCodes : List EntryKind := [.insert, .replace, .delete]

/-- An enumerated value, 1 character (R216). -/
def enumChar {α : Type} [DecidableEq α] (vs : List α) (v : α) : List Byte := numChars 1 (vs.idxOf v)

/-- A port, or none (R215). -/
def portChar (p : Option Port) : List Byte := enumChar portCodes p

/-- A flag or a condition: 0 or 1. -/
def flagChar (b : Bool) : List Byte := enumChar bitCodes b

/-- The attention set, 1 character (R215). -/
def attentionChar (a : Attention) : List Byte :=
  numChars 1 (a.cuePending.toNat + 2 * a.custodyChanged.toNat + 4 * a.policyNotice.toNat + 8 * a.fault.toNat +
    16 * a.returnPending.toNat + 32 * a.asRunWaiting.toNat)

/-! ## Numbers and frames (R215) -/

/-- A quantity that no request, record or entry carries: its size is free (log entry 14). -/
def unsized (q n : Nat) : List Byte := numChars (Config.unstatedSize q) n

/-- A case of a field of `k` characters that no marking is stated for: the value is free, the field keeps its size
(DEDUCED, log entry 14). -/
def unmarked (k q : Nat) : List Byte := numChars k (Config.unstatedMark q)

/-- A record or a condition whose absence no marking is stated for: how many characters stand for it, the `n`-th size,
is as free as their value (log entry 14). -/
def unsizedMark (n q : Nat) : List Byte := unsized n (Config.unstatedMark q)

/-- All ones in `k` characters. -/
def allOnes (k : Nat) : Nat := 256 ^ k - 1

/-- A frame field, 11 characters: day and timecode all 255 when the day would exceed 65,535. -/
def frameChars (f : FrameField) : List Byte :=
  numChars 5 f.h ++ (match f.label with
    | some t => schedChars t
    | none => List.replicate 6 255)

/-- A frame field that is absent or none, an H of all ones.  Its day would exceed 65,535 at every rate. -/
def absentFrame : List Byte := frameChars ⟨allOnes 5, none⟩

/-- A frame field, or one marked absent. -/
def optFrameChars : Option FrameField → List Byte
  | some f => frameChars f
  | none => absentFrame

/-- A sequence number, 6 characters. -/
def seqChars (n : Nat) : List Byte := numChars 6 n

/-- A sequence number, or none. -/
def optSeqChars : Option Nat → List Byte
  | some n => seqChars n
  | none => unmarked 6 0

/-- An optional event id, 0 when absent. -/
def optIdChars (id : Option Nat) : List Byte := numChars 4 (id.getD 0)

/-- A count of frames, 4 characters.  What is sent for a count beyond them (the offset of a held event at a far frame,
R57) no rule states: it is free (log entry 42). -/
def countChars4 (n : Nat) : List Byte := numChars 4 (if n ≤ allOnes 4 then n else Config.unstatedMark 9)

/-- A resolved duration, 4 characters: all ones open, one less absent. -/
def durChars : Dur → List Byte
  | .open => numChars 4 (allOnes 4)
  | .absent => numChars 4 (allOnes 4 - 1)
  | .frames n => countChars4 n

/-- A count of frames still to run, 4 characters, all ones open. -/
def openChars4 (n : Option Nat) : List Byte := countChars4 (n.getD (allOnes 4))

/-- A lateness or gap-after, 5 characters, all ones absent. -/
def absentChars5 (n : Option Nat) : List Byte := numChars 5 (n.getD (allOnes 5))

/-- A set of slots: its count and its members, 1 character each (R216). -/
def slotSetChars (ns : List Nat) : List Byte := numChars 1 ns.length ++ ns.flatMap (numChars 1)

/-- A flag set, as the count of its classes, which no request carries and whose size is free (log entry 14), and the
classes.  R199 gives these no order: they stand in order of priority (DESIGN CHOICE, log entry 48). -/
def flagSetChars (fs : List FaultClass) : List Byte := unsized 24 fs.length ++ fs.flatMap (enumChar faultClasses)

/-! ## Records and entries (R215) -/

/-- The media id and in-point of a CLIP, or the source number of a LIVE event. -/
def contentChars : Content → List Byte
  | .clip cs ip => numChars 1 cs.length ++ cs.flatMap (numChars 1) ++ numChars 4 ip
  | .live n => numChars 2 n

/-- The kind of an event: CLIP 0, LIVE 1. -/
def kindBit : Content → Nat
  | .clip _ _ => 0
  | .live _ => 1

/-- The flags of a reported record: kind, start mode, join, hold end present. -/
def reportFlags (e : EventRec) : Nat :=
  kindBit e.content + (match e.start with
    | .follow => 0
    | .fixed _ .cut => 2
    | .fixed _ .late => 6) + 8 * e.holdEnd.isSome.toNat

/-- The characters of a reported record after its record length. -/
def recordReportChars (r : EventReport) : List Byte :=
  numChars 4 r.record.id ++ numChars 1 (reportFlags r.record) ++ numChars 3 r.record.nominal ++
  (r.fixedStart.map frameChars).getD [] ++ contentChars r.record.content ++
  numChars 1 r.record.secondaries.length ++ r.record.secondaries.flatMap secondaryChars ++
  (r.holdEnd.map frameChars).getD [] ++ numChars 4 r.record.writtenRev

/-- One event of READ EVENTS: its list index, its record and its resolved fields. -/
def eventReportChars (r : EventReport) : List Byte :=
  numChars 2 r.index ++ numChars 1 (recordReportChars r).length ++ recordReportChars r ++
  enumChar resCodes r.resolved.state ++ optFrameChars r.resolvedStart ++ durChars r.resolved.duration ++
  absentChars5 r.resolved.lateness ++ absentChars5 r.resolved.gapAfter

/-- A secondary as a cue or a cursor carries it. -/
def cursorSecondaryChars (s : CursorSecondary) : List Byte :=
  numChars 2 s.trigger ++ enumChar secondaryCodes s.state ++ openChars4 s.frames

/-- The parts of a cue record that an EVENT cue holds. -/
def cueEventChars (c : EventCursor) : List Byte :=
  numChars 4 c.id ++ numChars 1 (kindBit c.content) ++ contentChars c.content ++ countChars4 c.offset ++
  numChars 5 c.lateness ++ (c.mediaPosition.map (numChars 4)).getD [] ++ openChars4 c.remaining ++
  optIdChars c.next ++ numChars 1 c.secondaries.length ++ c.secondaries.flatMap cursorSecondaryChars

/-- The cue kind, its flags and what the kind holds: EVENT 0, GAP 1, END 2, NO_TIMELINE 3 (R134). -/
def cueBodyChars : CueBody → List Byte
  | .event c held => numChars 1 0 ++ numChars 1 (2 * held.toNat) ++ cueEventChars c
  | .gap before next st n =>
    numChars 1 1 ++ numChars 1 before.toNat ++ numChars 4 next ++ enumChar resCodes st ++ numChars 5 n
  | .ended last n => numChars 1 2 ++ numChars 1 0 ++ numChars 4 last ++ numChars 5 n
  | .noTimeline => numChars 1 3 ++ numChars 1 0

/-- A cue record (R134, R215). -/
def cueRecordChars (r : CueReport) : List Byte :=
  numChars 2 r.number ++ numChars 1 r.slot ++ numChars 2 r.service ++ portChar (some (drPort r.target)) ++
  enumChar originCodes r.origin ++ enumChar modeCodes r.mode ++ numChars 1 r.attempt ++ frameChars r.switchFrame ++
  cueBodyChars r.body

/-- The identity of an event's media in a cursor: its media id or source number (R55). -/
def mediaChars : Content → List Byte
  | .clip cs _ => numChars 1 cs.length ++ cs.flatMap (numChars 1)
  | .live n => numChars 2 n

/-- A cursor: its kind, numbered in the order of R54 (DEDUCED, log entry 26), and the fields of R55. -/
def cursorBodyChars : Cursor → List Byte
  | .noTimeline => numChars 1 0
  | .event c =>
    numChars 1 1 ++ numChars 4 c.id ++ numChars 1 (kindBit c.content) ++ mediaChars c.content ++ countChars4 c.offset ++
    openChars4 c.remaining ++ numChars 5 c.lateness ++ (c.mediaPosition.map (numChars 4)).getD [] ++
    optIdChars c.next ++ numChars 1 c.secondaries.length ++ c.secondaries.flatMap cursorSecondaryChars
  | .gap next st n => numChars 1 2 ++ numChars 4 next ++ enumChar resCodes st ++ numChars 5 n
  | .before first st n => numChars 1 3 ++ numChars 4 first ++ enumChar resCodes st ++ numChars 5 n
  | .ended last n => numChars 1 4 ++ numChars 4 last ++ numChars 5 n

/-- The kind of an as-run entry: AIRED 0, SKIPPED 1, SWITCH 2 (R164). -/
def entryBodyKind : EntryBody → Nat
  | .aired _ _ _ _ _ => 0
  | .skipped _ => 1
  | .switch _ _ _ _ => 2

/-- The further fields of an as-run entry. -/
def entryBodyChars (first : Option FrameField) : EntryBody → List Byte
  | .aired id _ firstOffset aired out =>
    numChars 4 id ++ optFrameChars first ++ numChars 5 firstOffset ++ numChars 5 aired ++ enumChar outputCodes out
  | .skipped id => numChars 4 id
  | .switch fromO toO reason cue =>
    enumChar outputCodes fromO ++ enumChar outputCodes toO ++ enumChar reasonCodes reason ++ numChars 2 (cue.getD 0)

/-- An as-run entry (R164, R215). -/
def asRunEntryChars (r : AsRunEntryReport) : List Byte :=
  seqChars r.entry.seq ++ numChars 1 r.entry.slot ++ numChars 2 r.entry.service ++
  numChars 1 (entryBodyKind r.entry.body) ++ enumChar rateCodes r.entry.rate ++ frameChars r.frame ++
  entryBodyChars r.firstFrame r.entry.body

/-! ## Reply bodies (R216): each rule's fields, in the order it lists them -/

/-- The house parameters of R180. -/
def houseParamChars (p : HouseParams) : List Byte :=
  enumChar rateCodes p.rate ++ numChars 2 p.linkTimeout ++ numChars 2 p.autoTimeout ++ numChars 2 p.leaseTimeout ++
  numChars 3 p.holdLimit ++ enumChar yesNoCodes p.freeze

/-- The channel parameters of R181, a service ID of none sent as 0. -/
def channelParamChars (p : ChannelParams) : List Byte :=
  numChars 2 (p.serviceId.getD 0) ++ portChar (some (drPort p.preferred)) ++ p.policy.flatMap (enumChar actionCodes) ++
  numChars 3 p.guard ++ numChars 2 p.cueLead ++ numChars 2 p.horizon ++ numChars 3 p.lagLimit ++
  numChars 2 p.retention ++ numChars 2 p.quota

/-- The outcome of an evaluation, or none made. -/
def optOutcomeChar : Option EvalOutcome → List Byte
  | some o => enumChar outcomeCodes o
  | none => unmarked 1 1

/-- The evaluation record of R117, or none.  No request, record or entry carries a policy index, so that its size is
free, and so is the number of characters that stand for no record (log entry 14). -/
def evaluationChars (frame : Option FrameField) : Option Evaluation → List Byte
  | some e => optFrameChars frame ++ unsized 15 e.index ++ enumChar actionCodes e.action ++
      enumChar outcomeCodes e.outcome
  | none => unsizedMark 19 2

/-- A hold record: the hold flag, and while held the event's id and the timer, sized as the hold limit that it counts
down from (DEDUCED, log entry 14).  Not held, the id takes no characters (DESIGN CHOICE, log entry 50). -/
def holdChars : Option HoldRec → List Byte
  | some r => flagChar true ++ numChars 4 r.eventId ++ numChars 3 r.timer
  | none => flagChar false

/-- The blocks' state that READ CHANNEL carries for an in-service channel (R192).  With no segment open, its event id
and output take no characters, while the closing port takes its character with no commit in flight as well, the code 0
of no port (DESIGN CHOICE, log entry 50). -/
def liveReportChars (v : LiveReport) (state : CustodyState) : List Byte :=
  unsized 1 v.length ++ numChars 4 v.mirrorRev ++ numChars 4 v.sourceRev ++ flagChar v.stale ++ unsized 2 v.freeSlots ++
  numChars 4 v.timelineRev ++ optFrameChars v.anchor ++ holdChars v.hold ++
  portChar v.holder ++ flagChar v.closing.isSome ++ portChar v.closing ++
  enumChar custodyCodes state ++ portChar v.custodian ++ enumChar outputCodes v.output ++ flagChar v.m ++ flagChar v.s ++
  flagChar v.l ++ flagChar v.a ++ flagChar v.healthy ++
  (match v.mainRev with | some r => numChars 4 r | none => unmarked 4 3) ++
  optFrameChars v.behind ++ evaluationChars v.evalFrame v.lastEval ++ numChars 2 v.cueCounter ++
  seqChars v.latestSeq ++ (match v.segment with
    | some g => flagChar true ++ numChars 4 g.1 ++ enumChar outputCodes g.2
    | none => flagChar false) ++
  (match v.takeover with
    | some t => portChar (some (drPort t.target)) ++ frameChars t.switchFrame ++ numChars 2 t.number ++
        enumChar cueStateCodes t.state ++ numChars 1 t.attempt
    | none => []) ++
  (match v.ret with
    | some r => frameChars r.1 ++ numChars 4 r.2.1 ++ numChars 4 r.2.2
    | none => [])

/-- The reply to READ CHANNEL (R191, R192).  That of an IDLE slot carries the slot, the in-service flag and the room
left as well, which R191 does not name for it (DESIGN CHOICE, log entry 38). -/
def channelReportChars (r : ChannelReport) : List Byte :=
  numChars 1 r.slot ++ flagChar r.inService ++ channelParamChars r.params ++ houseParamChars r.house ++
  unsized 0 r.quotaSum ++ unsized 3 r.room ++ (match r.live with
    | some v => liveReportChars v r.state
    | none => enumChar custodyCodes r.state)

/-- The details of a refused commit (R97 to R101), its frames at a house rate. -/
def refusalChars (rate : HouseRate) : RefusalDetail → List Byte
  | .none => []
  | .entry index kind id => unsized 4 index ++ enumChar entryKindCodes kind ++ numChars 4 id
  | .quota length quota => unsized 1 length ++ numChars 2 quota
  | .protected_ id start trialStart duration trialDuration =>
    numChars 4 id ++ optFrameChars (start.map (frameField rate)) ++ durChars duration ++
    optFrameChars (trialStart.map (frameField rate)) ++ durChars trialDuration

/-- The INSERT entries dropped, which a RESYNC's reply alone carries. -/
def droppedChars (n : Option Nat) : List Byte := (n.map (unsized 5)).getD []

/-- The detail of a fault report (R193), its frame at a house rate. -/
def detailChars (rate : HouseRate) : FaultDetail → List Byte
  | .none => []
  | .cueNumber n => numChars 2 n
  | .refusal st => numChars 1 st.code
  | .miss cue attempt cause => numChars 2 cue ++ numChars 1 attempt ++ enumChar causeCodes cause
  | .returnFrame t => frameChars (frameField rate t)
  | .heldEvent id => numChars 4 id
  | .line cause => enumChar lineCodes cause

/-- The capture record (R196), or empty.  How many characters stand for an empty record, and for the slot and service
ID of a fault without a channel, is free (log entry 14). -/
def captureChars (rate : HouseRate) (frame : Option FrameField) : Option Capture → List Byte
  | some c => enumChar faultClasses c.cls ++ (match c.channel with
        | some ch => numChars 1 ch.1 ++ numChars 2 ch.2
        | none => unsizedMark 21 4) ++
      portChar c.port ++ optFrameChars frame ++ detailChars rate c.detail ++ flagChar c.repeated ++ flagChar c.frozen
  | none => unsizedMark 20 5

/-- The characters of a reply's body, formed at a house rate.  Each "whether" of a reply, that of CLEAR FAULTS among
them, is a flag (DEDUCED, log entry 14).  "Its resolved start or its SKIPPED state" (R78) is the resolution state
followed by the start (DESIGN CHOICE, log entry 38).  The held event's id of READ CURSOR takes no characters while
none is held (DESIGN CHOICE, log entry 50).  The outcomes of ARM are preceded by their count, of the size of a slot
count (DEDUCED, log entry 14).  The counts of READ STATUS, READ FAULTS and MATCH, and what stands for no captured
fault and for not held, have free sizes, and the counts of PRESENCE and of the reads those of their requests (DEDUCED,
log entry 14).  The stored fixed start of a cue's event stands after the fields that R134 and R139 list, and takes no
characters where it is absent (R29; DESIGN CHOICE, log entry 40). -/
def bodyReplyChars (rate : HouseRate) : ReplyBody → List Byte
  | .empty => []
  | .presence counts timeout ref frame =>
    (match counts with | some c => numChars 1 c.1 ++ numChars 1 c.2 | none => []) ++ numChars 2 timeout ++
    enumChar refCodes ref ++ optFrameChars frame
  | .attentionSet a => attentionChar a
  | .timeSet frame ref => frameChars frame ++ enumChar refCodes ref
  | .house p ref => houseParamChars p ++ enumChar refCodes ref
  | .configured slot state p quotaSum outcome returned =>
    numChars 1 slot ++ enumChar custodyCodes state ++ channelParamChars p ++ unsized 0 quotaSum ++
    (outcome.map (enumChar outcomeCodes)).getD [] ++ (returned.map (unsized 6)).getD []
  | .quotaRefused sum length limit => unsized 0 sum ++ unsized 1 length ++ enumChar limitCodes limit
  | .serviceHeldBy slot => numChars 1 slot
  | .channel r => channelReportChars r
  | .batchOpened slot service mirrorRev sourceRev leaseTimeout freeBuffers =>
    numChars 1 slot ++ numChars 2 service ++ numChars 4 mirrorRev ++ numChars 4 sourceRev ++ numChars 2 leaseTimeout ++
    unsized 7 freeBuffers
  | .leaseHolder holder => portChar holder
  | .entriesHeld held received overrun => unsized 8 held ++ unsized 9 received ++ flagChar overrun
  | .committed mirrorRev sourceRev length adjusted dropped =>
    numChars 4 mirrorRev ++ numChars 4 sourceRev ++ unsized 1 length ++ unsized 10 adjusted ++ droppedChars dropped
  | .commitRefused detail mirrorRev sourceRev dropped =>
    refusalChars rate detail ++ numChars 4 mirrorRev ++ numChars 4 sourceRev ++ droppedChars dropped
  | .events m es =>
    numChars 1 m.slot ++ numChars 2 m.service ++ unsized 1 m.length ++ numChars 2 m.quota ++ numChars 4 m.mirrorRev ++
    numChars 4 m.sourceRev ++ flagChar m.stale ++ numChars 1 m.returned ++ flagChar m.more ++ es.flatMap eventReportChars
  | .cursor r =>
    numChars 1 r.slot ++ numChars 2 r.service ++ frameChars r.frame ++ numChars 4 r.timelineRev ++ flagChar r.inFlight ++
    flagChar r.heldEvent.isSome ++ (r.heldEvent.map (numChars 4)).getD [] ++ cursorBodyChars r.cursor ++
    unsized 11 r.protectedCount ++ r.protectedIds.flatMap (numChars 4) ++ flagChar r.protectedMore
  | .taken target mode switchFrame number state =>
    portChar (some (drPort target)) ++ enumChar modeCodes mode ++ frameChars switchFrame ++ numChars 2 number ++
    enumChar cueStateCodes state
  | .stateAfter state => enumChar custodyCodes state
  | .cueWait number switchFrame attempt => numChars 2 number ++ frameChars switchFrame ++ numChars 1 attempt
  | .cue r => cueRecordChars r ++ enumChar cueStateCodes r.state ++ unsized 12 r.updates ++ optFrameChars r.takenAt ++
    (r.fixedStart.map frameChars).getD []
  | .cueReady number switchFrame updates => numChars 2 number ++ frameChars switchFrame ++ unsized 12 updates
  | .currentCue number => numChars 2 number
  | .heldNow id offset timer limit => numChars 4 id ++ countChars4 offset ++ numChars 3 timer ++ frameChars limit
  | .notHeld => unsizedMark 23 6
  | .released id tEnd next =>
    numChars 4 id ++ frameChars tEnd ++ (match next with
      | some n => enumChar resCodes n.1 ++ optFrameChars n.2
      | none => [])
  | .returning frame id offset mediaPosition custodian present mark latest =>
    frameChars frame ++ numChars 4 id ++ numChars 4 offset ++ (mediaPosition.map (numChars 4)).getD [] ++
    portChar custodian ++ enumChar presenceCodes present ++ seqChars mark ++ seqChars latest
  | .asRunPending mark latest newest => seqChars mark ++ seqChars latest ++ seqChars newest
  | .cursorMismatch c frame => cursorBodyChars c ++ frameChars frame
  | .returnCancelled frame state => frameChars frame ++ enumChar custodyCodes state
  | .armed set dropped outcomes =>
    slotSetChars set ++ slotSetChars dropped ++ numChars 1 outcomes.length ++
    outcomes.flatMap (fun o => numChars 1 o.1 ++ optOutcomeChar o.2)
  | .matched count channels => unsized 18 count ++ channels.flatMap (fun c => numChars 1 c.1 ++ numChars 2 c.2)
  | .asRun r =>
    r.entries.flatMap asRunEntryChars ++ numChars 1 r.returned ++ unsized 13 r.overwritten ++
    optSeqChars r.lastExamined ++ seqChars r.mark ++ enumChar yesNoCodes r.follow ++ seqChars r.newest ++
    optSeqChars r.oldest ++ flagChar r.full ++ unsized 14 r.dropped ++ flagChar r.more
  | .asRunRefused newest oldest full dropped =>
    seqChars newest ++ optSeqChars oldest ++ flagChar full ++ unsized 14 dropped
  | .marked mark follow newest oldest =>
    seqChars mark ++ enumChar yesNoCodes follow ++ seqChars newest ++ optSeqChars oldest
  | .status r =>
    attentionChar r.attention ++ enumChar refCodes r.refState ++ optFrameChars r.frame ++
    (match r.freeSlots with | some n => unsized 2 n | none => unsizedMark 2 7) ++
    unsized 7 r.freeBuffers ++ seqChars r.newest ++ (match r.captured with
      | some c => enumChar faultClasses c.1 ++ flagChar c.2
      | none => unsizedMark 22 8) ++
    flagChar r.anyFlag ++ unsized 16 r.inService
  | .faults r =>
    captureChars rate r.captureFrame r.capture ++ enumChar yesNoCodes r.freeze ++ flagSetChars r.houseFlags ++
    r.channels.flatMap (fun c => numChars 1 c.1 ++ numChars 2 c.2.1 ++ flagSetChars c.2.2) ++ unsized 17 r.count
  | .cleared slots capture => slotSetChars slots ++ flagChar capture
  | .busySlot slot => numChars 1 slot

/-! ## The reply frame (R215) -/

/-- What the check sequence of a reply covers: body length through body. -/
def replyChecked (rate : HouseRate) (r : Reply) : List Byte :=
  let body := bodyReplyChars rate r.body
  numChars 2 body.length ++ numChars 1 r.code ++ numChars 1 r.tag ++ numChars 1 r.status.code ++
  attentionChar r.attention ++ body

/-- A reply frame, formed at the house rate in force. -/
def replyFrame (rate : HouseRate) (r : Reply) : List Byte :=
  60#8 :: (replyChecked rate r ++ numChars 2 (crc (replyChecked rate r)).toNat)

end Sys2Proof.Machine
end

