-- ==== Sys2Proof/Tests/Slice0.lean ====
section
/-! SUPPORT. The model's own tests: ill-formed commands refused, the spec's worked cases, one or two steps of every
command, and for every statement with hypotheses a state and operands that meet them. -/

namespace Sys2Proof.Tests

open Sys2Proof.Machine

set_option Elab.async false

/-! ## WellFormed: an ill-formed command for each check -/

/-- Well formed on the line. -/
def ok (c : Instr) : Bool := c.wf canReadRecord

def hL : Head := ⟨.L, 1⟩
def hA : Head := ⟨.A, 2⟩
def hB : Head := ⟨.B, 3⟩

/-- A FOLLOW CLIP record. -/
def clip : RecordFields := ⟨7, .clip, false, false, 0, 750, none, some [65], some 0, none, []⟩

/-- ADD ENTRIES of one REPLACE with a record. -/
def replaceWith (f : RecordFields) : Instr := .addEntries hL (.fields ⟨1205, [.replace 7 (.fields f)], false⟩)

/-- CONFIGURE CHANNEL of slot 5 that keeps every parameter. -/
def keepAll : ChannelFields :=
  ⟨5, some true, false, .keep, .keep, .keep, .keep, .keep, .keep, .keep, .keep, .keep⟩

/-- CONFIGURE HOUSE that keeps every parameter. -/
def keepHouse : HouseFields := ⟨false, .keep, .keep, .keep, .keep, .keep, .keep⟩

theorem test_wf_pins : ok (.deviceReset ⟨8, 0, 0⟩) = false := by decide
theorem test_wf_pulse_slot : ok (.housePulse 0 [32]) = false := by decide
theorem test_wf_inserted_slot : ok (.insertedArrival 0 [32]) = false := by decide
theorem test_wf_event_slots :
    ok (.holdLimit 32) = false ∧ ok (.leaseExpired 32) = false ∧ ok (.commitCompletion ⟨32, .whole⟩) = false ∧
    ok (.switchFrameReached 32) = false ∧ ok (.returnSwitchFrame 32) = false := by decide
theorem test_wf_tag : ok (.readStatus ⟨.A, 256⟩ (.fields ())) = false := by decide
theorem test_wf_unknown_code : ok (.unknownRequest hA 5) = false ∧ ok (.unknownRequest hA 256) = false := by decide
theorem test_wf_presence_service : ok (.presence hL (.fields [⟨65536, some true, 0⟩])) = false := by decide
theorem test_wf_presence_body : ok (.presence hA (.fields [⟨1, some true, 0⟩])) = false := by decide
theorem test_wf_schedule_time : ok (.setTime hA (.fields ⟨65536, ⟨0, 0, 0, 0⟩⟩)) = false ∧
    ok (.setTime hA (.fields ⟨0, ⟨0, 0, 0, 256⟩⟩)) = false := by decide
theorem test_wf_house : ok (.configureHouse hA (.fields { keepHouse with linkTimeout := .give 65536 })) = false ∧
    ok (.configureHouse hA (.fields { keepHouse with holdLimit := .give 16777216 })) = false := by decide
theorem test_wf_channel : ok (.configureChannel hA (.fields { keepAll with channel := 65536 })) = false ∧
    ok (.configureChannel hA (.fields { keepAll with policy := .give [] })) = false ∧
    ok (.configureChannel hA (.fields { keepAll with guard := .give 16777216 })) = false := by decide
theorem test_wf_open_base : ok (.openBatch hL (.fields ⟨1205, some .edit, none⟩)) = false ∧
    ok (.openBatch hL (.fields ⟨1205, some .resync, some 1⟩)) = false := by decide
theorem test_wf_placement : ok (.addEntries hL (.fields ⟨1205, [.insert (some 0) (.fields clip)], false⟩)) = false := by
  decide
theorem test_wf_record_start : ok (replaceWith { clip with fixed := true }) = false := by decide
theorem test_wf_record_kind : ok (replaceWith { clip with kind := .live }) = false := by decide
theorem test_wf_record_flags : ok (replaceWith { clip with strayFlags := 32 }) = false := by decide
theorem test_wf_record_nominal : ok (replaceWith { clip with nominal := 16777216 }) = false := by decide
theorem test_wf_record_media : ok (replaceWith { clip with mediaId := some [256] }) = false := by decide
theorem test_wf_record_secondary : ok (replaceWith { clip with secondaries := [⟨65536, 0, 0⟩] }) = false := by decide
theorem test_wf_record_length : ok (replaceWith { clip with mediaId := some (List.replicate 201 65) }) = false := by
  decide +kernel
theorem test_wf_readable : ok (.addEntries hL (.fields ⟨1205, [.insert none (.unreadable (recordChars clip))], false⟩)) =
    false := by decide +kernel
theorem test_wf_declared : ok (.closeBatch hL (.fields ⟨1205, none⟩)) = false ∧
    ok (.closeBatch hA (.fields ⟨5, some 1⟩)) = false := by decide
theorem test_wf_read_start : ok (.readEvents hA (.fields ⟨5, some 0, 1⟩)) = false ∧
    ok (.readEvents hA (.fields ⟨5, none, 256⟩)) = false ∧ ok (.readNextEvents hA (.fields 256)) = false := by decide
theorem test_wf_channel_field : ok (.readChannel hA (.fields 65536)) = false ∧ ok (.take hA (.fields ⟨65536, none⟩)) = false ∧
    ok (.cancelTake hA (.fields 65536)) = false ∧ ok (.fetchCue hA (.fields 65536)) = false ∧
    ok (.hold hA (.fields 65536)) = false ∧ ok (.cancelReturn hA (.fields 65536)) = false ∧
    ok (.abortBatch hA (.fields 65536)) = false := by decide
theorem test_wf_cursor_time : ok (.readCursor hA (.fields ⟨5, .time ⟨65536, ⟨0, 0, 0, 0⟩⟩⟩)) = false := by decide
theorem test_wf_cue_number : ok (.cueReady hA (.fields ⟨5, 65536⟩)) = false := by decide
theorem test_wf_release_end : ok (.releaseHold hA (.fields ⟨5, ⟨0, ⟨256, 0, 0, 0⟩⟩⟩)) = false := by decide
theorem test_wf_return_fields : ok (.handback hL (.fields ⟨1205, ⟨0, ⟨0, 0, 0, 0⟩⟩, 4294967296, 0⟩)) = false := by decide
theorem test_wf_sets : ok (.arm hA (.fields ⟨some .add, [256]⟩)) = false ∧
    ok (.readAsRun hL (.fields ⟨1, .members [65536]⟩)) = false ∧ ok (.readAsRun hA (.fields ⟨1, .members [256]⟩)) = false ∧
    ok (.clearFaults hA (.fields ⟨[256], some true⟩)) = false := by decide
theorem test_wf_mark : ok (.mark hA (.fields ⟨281474976710656, some true⟩)) = false := by decide

/-! ## Worked conversions (House Time) -/

theorem test_conversion_25 : toFrame .r25 ⟨100, ⟨18, 0, 0, 0⟩⟩ = some (217620000, false) ∧
    toFrame .r25 ⟨0, ⟨18, 13, 20, 0⟩⟩ = some (1640000, false) ∧ toFrame .r25 ⟨0, ⟨18, 30, 30, 25⟩⟩ = none ∧
    toTimecode .r25 1640000 = ⟨18, 13, 20, 0⟩ := by decide
theorem test_conversion_50 : toFrame .r50 ⟨0, ⟨12, 34, 56, 49⟩⟩ = some (2264849, false) ∧
    toTimecode .r50 2264849 = ⟨12, 34, 56, 49⟩ := by decide
theorem test_conversion_2997 : toFrame .r2997 ⟨0, ⟨1, 0, 0, 0⟩⟩ = some (107892, false) ∧
    toFrame .r2997 ⟨0, ⟨0, 1, 0, 0⟩⟩ = some (1800, true) ∧ toFrame .r2997 ⟨0, ⟨0, 0, 59, 29⟩⟩ = some (1799, false) ∧
    toFrame .r2997 ⟨0, ⟨23, 59, 59, 29⟩⟩ = some (2589407, false) ∧ toTimecode .r2997 107892 = ⟨1, 0, 0, 0⟩ ∧
    toTimecode .r2997 1800 = ⟨0, 1, 0, 2⟩ ∧ toTimecode .r2997 2589407 = ⟨23, 59, 59, 29⟩ := by decide
theorem test_conversion_5994 : toFrame .r5994 ⟨0, ⟨0, 10, 0, 0⟩⟩ = some (35964, false) ∧
    toFrame .r5994 ⟨0, ⟨0, 1, 0, 3⟩⟩ = some (3600, true) ∧ toFrame .r5994 ⟨0, ⟨23, 59, 59, 59⟩⟩ = some (5178815, false) ∧
    toTimecode .r5994 35964 = ⟨0, 10, 0, 0⟩ ∧ toTimecode .r5994 3600 = ⟨0, 1, 0, 4⟩ ∧
    toTimecode .r5994 5178815 = ⟨23, 59, 59, 59⟩ := by decide
theorem test_reported_frame : frameField .r25 217640000 = ⟨217640000, some ⟨100, ⟨18, 13, 20, 0⟩⟩⟩ := by decide

/-! ## The worked case of Timeline Resolution -/

/-- Its list, e1 to e5. -/
def list5 : List EventRec :=
  [⟨1, .fixed 217620000 .cut, 45000, .clip [65] 0, [⟨11, 250, 500⟩, ⟨12, 44900, 250⟩, ⟨13, 45000, 0⟩], none, 17⟩,
   ⟨2, .follow, 750, .clip [66] 0, [], none, 17⟩,
   ⟨3, .follow, 750, .clip [67] 0, [], none, 17⟩,
   ⟨4, .fixed 217665750 .cut, 90000, .live 12, [], none, 17⟩,
   ⟨5, .fixed 217755750 .late, 7500, .clip [68] 0, [], none, 17⟩]

/-- Its timeline. -/
def timeline5 : List Resolved := resolve list5 none none

theorem test_worked_resolution :
    timeline5.map (fun r => (r.state, r.start, r.duration, r.gapAfter)) =
      [(.resolved, some 217620000, .frames 45000, some 0), (.resolved, some 217665000, .frames 750, some 0),
       (.skipped, some 217665750, .frames 0, some 0), (.resolved, some 217665750, .frames 90000, some 0),
       (.resolved, some 217755750, .frames 7500, none)] := by decide

/-- A held FOLLOW event left at the head without an end to follow stays open, and what comes after it SUSPENDED (R50,
R74). -/
theorem test_held_without_an_end :
    (resolve [⟨9, .follow, 750, .live 12, [], none, 17⟩, ⟨5, .fixed 217755750 .late, 7500, .clip [68] 0, [], none, 17⟩] none
        (some 9)).map (fun r => (r.state, r.start, r.duration)) =
      [(.resolved, none, .open), (.suspended, none, .absent)] := by decide

theorem test_worked_secondaries : (timeline5.head?.map fun r => r.secondaries) =
    some [⟨11, 217620250, some 500⟩, ⟨12, 217664900, some 100⟩] := by decide

theorem test_worked_cursors :
    cursorAt list5 timeline5 217600000 = .before 1 .resolved 20000 ∧
    cursorAt list5 timeline5 217640000 =
      .event ⟨1, .clip [65] 0, 20000, some 25000, 0, some 20000, some 2, [⟨12, .upcoming, some 24900⟩]⟩ ∧
    cursorAt list5 timeline5 217664950 =
      .event ⟨1, .clip [65] 0, 44950, some 50, 0, some 44950, some 2, [⟨12, .active, some 50⟩]⟩ ∧
    cursorAt list5 timeline5 217665750 = .event ⟨4, .live 12, 0, some 90000, 0, none, some 5, []⟩ ∧
    cursorAt list5 timeline5 217770000 = .ended 5 6750 := by decide

theorem test_worked_junctions :
    junctionIn 217640025 217640250 timeline5 = none ∧ junctionIn 217664825 217665050 timeline5 = some 217665000 ∧
    junctionIn 217665625 217665850 timeline5 = some 217665750 := by decide

theorem test_worked_protected_sets :
    (drawProtected list5 timeline5 none 1500 (some 217640000)).map (·.contents.id) = [1] ∧
    (drawProtected list5 timeline5 none 1500 (some 217664800)).map (·.contents.id) = [1, 2, 3, 4] := by decide

/-! ## States of the tests -/

/-- A port that is PRESENT. -/
def here : PortUnit := { resetPort 115200 with presence := some 50 }

/-- A house in LOCKED at 217,640,000, every port PRESENT, no channel in service. -/
def house : State :=
  { resetState 115200 115200 115200 with
    storeReady := true
    reference := ⟨.locked, 217640000, some ⟨1200000000, .pulse⟩, none⟩
    portL := here, portA := here, portB := here }

/-- A state with H at a frame. -/
def atFrame (h : Nat) (s : State) : State := { s with reference := { s.reference with h := h } }

/-- The parameters of slot 5: service ID 1205. -/
def params5 : ChannelParams := { defaultParams with serviceId := some 1205 }

/-- Custody in MAIN with no condition. -/
def inMain : Custody := { enteringCustody true with s := false }

/-- Custody in DR under a port. -/
def inDr (d : DrPort) : Custody :=
  { inMain with state := .dr, custodian := some (drPort d), output := drOutput d, cueCounter := 2 }

/-- Cue 1 of the worked takeover, to Port A at 217,640,025. -/
def cue1 (st : CueState) : Cue :=
  ⟨1, 217640025, st, 0, some (cueBodyOf none (cursorAt list5 timeline5 217640025))⟩

/-- The takeover of the worked takeover at an attempt. -/
def takeover1 (st : CueState) (attempt : Nat) : Takeover := ⟨.main, .main, .policy, .junction, .A, .A, attempt, cue1 st⟩

/-- Custody in TAKING from MAIN, with the main site lost. -/
def inTaking (st : CueState) (attempt : Nat) : Custody :=
  { inMain with state := .taking, m := true, healthy := false, cueCounter := 1, takeover := some (takeover1 st attempt) }

/-- Custody in RETURNING, as the worked handback accepts it. -/
def inReturning : Custody :=
  { inDr .A with state := .returning, ret := some ⟨217650050, 1, 30050, 217650012, 4003, 4002, .drA⟩ }

/-- The channel of the worked cases with a custody. -/
def live5 (c : Custody) : Live :=
  { enteringLive true (some 217640000) with
    events := list5, timeline := timeline5, mirrorRev := 17, sourceRev := 230, timelineRev := 17, stale := false
    followed := some (cursorAt list5 timeline5 217640000), custody := c }

/-- The house with slot 5 in service. -/
def one (l : Live) : State := house.setChan 5 ⟨params5, some l⟩

/-- The house with slot 5 under a custody. -/
def with5 (c : Custody) : State := one (live5 c)

theorem live_one (l : Live) (i : Slot) : (one l).live i = if i = 5 then some l else none := by
  by_cases h : i = 5
  · subst h; rfl
  · have : house.live i = none := by revert i; decide +kernel
    simpa [one, h, State.live] using this

theorem names_one (l : Live) : Names (one l) .A 5 5 l := rfl

/-- A law of every channel holds of the house with slot 5 when it holds of slot 5. -/
theorem everyChannel_one {P : ChannelParams → Live → Prop} {l : Live} (h : P params5 l) : EveryChannel P (one l) := by
  intro i m hm
  rw [live_one] at hm
  split at hm
  · rename_i e; subst e; cases hm; exact h
  · simp at hm

/-- The state a command leaves. -/
def after (c : Instr) (s : State) : State :=
  match exec c s with
  | .next t => t
  | _ => s

/-- The last reply sent on a port: its status and body. -/
def lastReply (p : Port) (s : State) : Option (Status × ReplyBody) := ((s.port p).sent.getLast?).map fun r => (r.status, r.body)

/-- The last reply's status. -/
def lastStatus (p : Port) (s : State) : Option Status := (lastReply p s).map (·.1)


/-- What a function reads of slot 5. -/
def of5 {α : Type} (f : Live → α) (s : State) : Option α := (s.live 5).map f

/-! ## Frames on the line (R204, R215) -/

/-- READ STATUS with tag 5: the check sequence by the polynomial of R204, worked out apart from the model. -/
theorem test_frame_bytes : requestFrame 26 5 [] = [195, 0, 0, 26, 5, 0x38, 0xDD] := by decide +kernel
theorem test_frame_decodes : receiveAll .A .hunting ([17, 195, 0, 0, 26, 5, 0x38, 0xDD].map fun b => .char b true) =
    (.hunting, [.readStatus ⟨.A, 5⟩ (.fields ())]) := by decide +kernel
theorem test_frame_bad_check : receiveAll .A .hunting ([195, 0, 0, 26, 5, 0x38, 0xDC].map fun b => .char b true) =
    (.hunting, [.badFrame .A .check]) := by decide +kernel
theorem test_frame_too_long : receiveAll .A .hunting ([195, 8, 1].map fun b => .char b true) =
    (.discarding, [.badFrame .A .length]) := by decide +kernel

/-- One request of each family, its body written out by R216. -/
theorem test_bodies_decode :
    decodeRequest .A 3 1 [0, 100, 18, 0, 0, 0] = .setTime ⟨.A, 1⟩ (.fields ⟨100, ⟨18, 0, 0, 0⟩⟩) ∧
    decodeRequest .A 4 1 [0x3E, 2, 0, 0, 0, 0, 0, 0, 0, 0, 0, 0] =
      .configureHouse ⟨.A, 1⟩ (.fields { keepHouse with rate := .give (some .r50) }) ∧
    decodeRequest .A 14 1 [0, 5, 1] = .take ⟨.A, 1⟩ (.fields ⟨5, some .junction⟩) ∧
    decodeRequest .L 9 1 [4, 0xB5, 0, 0, 0, 231] = .closeBatch ⟨.L, 1⟩ (.fields ⟨1205, some 231⟩) ∧
    decodeRequest .B 9 1 [0, 5] = .closeBatch ⟨.B, 1⟩ (.fields ⟨5, none⟩) ∧
    decodeRequest .A 11 1 [0, 3, 0, 0, 0, 103, 20] = .readEvents ⟨.A, 1⟩ (.fields ⟨3, some 103, 20⟩) ∧
    decodeRequest .A 22 1 [1, 1, 7] = .arm ⟨.A, 1⟩ (.fields ⟨some .add, [7]⟩) ∧
    decodeRequest .B 24 1 [2, 1, 1, 5] = .readAsRun ⟨.B, 1⟩ (.fields ⟨2, .members [5]⟩) ∧
    decodeRequest .L 25 1 [0, 0, 0, 0, 0x13, 0x88, 0] = .mark ⟨.L, 1⟩ (.fields ⟨5000, some true⟩) ∧
    decodeRequest .A 28 1 [1, 5, 0] = .clearFaults ⟨.A, 1⟩ (.fields ⟨[5], some true⟩) ∧
    decodeRequest .L 20 1 [4, 0xB5, 0, 100, 18, 20, 2, 0, 0, 0, 0, 1, 0, 0, 0x75, 0x62] =
      .handback ⟨.L, 1⟩ (.fields ⟨1205, ⟨100, ⟨18, 20, 2, 0⟩⟩, 1, 30050⟩) ∧
    decodeRequest .A 2 1 [0] = .portReset ⟨.A, 1⟩ .misfit := by decide +kernel

/-- A CLIP record, FIXED CUT, written out by R215: record length, event id, flags, nominal duration, fixed start, media
id, in-point, secondaries. -/
theorem test_record_decodes : takeStaged [23, 0, 0, 0, 6, 2, 0, 2, 0xEE, 0, 100, 18, 29, 59, 15, 1, 65, 0, 0, 0, 0, 0, 99] =
    none ∧ takeStaged [21, 0, 0, 0, 6, 2, 0, 2, 0xEE, 0, 100, 18, 29, 59, 15, 1, 65, 0, 0, 0, 0, 0, 99] =
    some (.fields ⟨6, .clip, true, false, 0, 750, some ⟨100, ⟨18, 29, 59, 15⟩⟩, some [65], some 0, none, []⟩, [99]) := by
  decide +kernel

/-- Frame field of 217,640,000 and an absent one; reply code 34 of POSITION_LOST (R214, R215). -/
theorem test_reply_layout : frameChars (frameField .r25 217640000) = [0, 0x0C, 0xF8, 0xEC, 0x40, 0, 100, 18, 13, 20, 0] ∧
    absentFrame = List.replicate 11 255 ∧
    (replyFrame .r25 ⟨12, 9, .positionLost, ⟨false, false, false, true, false, true⟩, .empty⟩).take 7 =
      [60, 0, 0, 12, 9, 34, 40] := by decide +kernel

/-! ## The events of the house -/

theorem test_reset_samples_rates : ((after (.deviceReset ⟨5, 4, 6⟩) house).portL.baud,
    (after (.deviceReset ⟨5, 4, 6⟩) house).portA.baud, (after (.deviceReset ⟨5, 4, 6⟩) house).portB.baud) =
      (3000000, 1500000, 115200) := by decide +kernel

/-- R20: no slot is free while store initialisation is in progress. -/
theorem test_store_initialising : State.reset.freeSlots = 0 ∧ (State.reset.statusReport .A).freeSlots = none := by
  decide +kernel

theorem test_store_ready : ((after .storeInitialisationEnd State.reset).statusReport .A).freeSlots = some 8192 := by
  decide +kernel

/-- The worked case of House Time: its times in milliseconds, in thirds of a nanosecond. -/
def ms (n : Nat) : Nat := n * 3000000

/-- LOCKED at 217,620,001 with the last pulse at 80 ms. -/
def at80 : State := { house with reference := ⟨.locked, 217620001, some ⟨ms 80, .pulse⟩, none⟩ }

theorem test_inserted_arrival : (after (.insertedArrival (ms 140) []) at80).reference =
      ⟨.flywheel, 217620002, some ⟨ms 140, .timebase⟩, none⟩ ∧
    (after (.insertedArrival (ms 140) []) at80).houseFlags = [.refLost] ∧
    after (.insertedArrival (ms 140 - 1) []) at80 = at80 := by decide +kernel

/-- The repeat at 195 after the inserted arrival at 180, and the pulse at 205 that would have counted. -/
theorem test_pulse_after_inserted :
    let s : State := { house with reference := ⟨.flywheel, 217620003, some ⟨ms 180, .timebase⟩, none⟩ }
    (after (.housePulse (ms 195) []) s).reference = ⟨.locked, 217620003, some ⟨ms 195, .pulse⟩, none⟩ ∧
    (after (.housePulse (ms 205) []) s).reference = ⟨.locked, 217620004, some ⟨ms 205, .pulse⟩, none⟩ := by decide +kernel

theorem test_pulse_takes_the_set :
    let s : State := { at80 with reference := ⟨.unset, 0, some ⟨0, .pulse⟩, some ⟨217620000, .A, 9, false⟩⟩ }
    (after (.housePulse (ms 40) []) s).reference = ⟨.locked, 217620000, some ⟨ms 40, .pulse⟩, none⟩ ∧
    lastReply .A (after (.housePulse (ms 40) []) s) = some (.ok, .timeSet (frameField .r25 217620000) .locked) := by
  decide +kernel

/-! ## Expiries -/

/-- The worked case of Running Timelines: e4 held, e5 waiting, anchor 217,665,750. -/
def held5 (timer : Nat) : Live :=
  let es := list5.drop 3
  { live5 (inDr .A) with
    events := es, timeline := resolve es (some 217665750) (some 4), anchor := some 217665750, hold := some ⟨4, timer⟩
    followed := some (cursorAt es (resolve es (some 217665750) (some 4)) 217755000)
    segment := some ⟨4, 217665750, 0, .drA⟩ }

/-- The variant: the limit runs out at 218,115,000. -/
theorem test_hold_limit : of5 (fun l => (l.hold, l.timeline.map fun r => (r.state, r.start, r.duration)))
    (after (.holdLimit 5) (atFrame 218115000 (one (held5 0)))) =
      some (none, [(.resolved, some 217665750, .frames 450750), (.skipped, some 218116500, .frames 0)]) := by decide +kernel

/-- An OPEN batch of Port L with a lease timer. -/
def opened (n : Nat) : Batch := ⟨.L, .edit, some 17, [], 0, false, .opened n⟩

theorem test_lease_expired : of5 (fun l => (l.batch, l.flags)) (after (.leaseExpired 5)
    (one { live5 inMain with batch := some (opened 0) })) = some (none, [.leaseExpired]) := by decide +kernel

/-- The worked sequence of The As-Run Log: A's presence expires at 217,642,000 and a swap to B starts. -/
def lostA : State := { atFrame 217642000 (with5 (inDr .A)) with portA := { here with presence := some 0 } }

theorem test_presence_expiry : of5 (fun l => (l.custody.state, l.flags)) (after (.presenceExpiry .A) lostA) =
      some (.taking, [.custodianAbsent]) ∧
    of5 (fun l => l.custody.takeover.map fun k => (k.origin, k.target, k.cue.number, k.cue.switchFrame))
      (after (.presenceExpiry .A) lostA) = some (some (.swap, .B, 3, 217642025)) := by decide +kernel

/-! ## Commits -/

/-- e6 of the worked case of Batches and Commit, placed after e1, and e5 lengthened. -/
def insert6 : Entry :=
  .insert (some 1) (.fields ⟨6, .clip, true, false, 0, 750, some ⟨100, ⟨18, 29, 59, 15⟩⟩, some [69], some 0, none, []⟩)
def replace5 : Entry :=
  .replace 5 (.fields ⟨5, .clip, true, true, 0, 9000, some ⟨100, ⟨19, 30, 30, 0⟩⟩, some [68], some 0, none, []⟩)

/-- A SEALED batch of Port L, base 17, declared 231. -/
def sealed (es : List Entry) (tag : Option Nat) : Batch := ⟨.L, .edit, some 17, es, es.length, false, .sealed (some 231) tag⟩

/-- Slot 5 in DR at 217,664,761, its protected set drawn, with the batch in flight. -/
def closing (es : List Entry) (tag : Option Nat) : State :=
  let l := { live5 (inDr .A) with batch := some (sealed es tag) }
  { atFrame 217664761 (one (l.redraw params5 (some 217664761))) with
    portL := { here with inProgress := tag.map fun t => ⟨9, t⟩ } }

theorem test_commit_protected : lastReply .L (after (.commitCompletion ⟨5, .whole⟩) (closing [replace5, insert6] (some 1))) =
    some (.protected_, .commitRefused (.protected_ 1 (some 217620000) (some 217620000) (.frames 45000) (.frames 44990))
      17 230 none) := by decide +kernel

/-- A held FOLLOW event behind e1, with no anchor: a commit that deletes e1 leaves it no end to follow. -/
def heldFollow : Live :=
  let es : List EventRec := [⟨1, .fixed 217620000 .cut, 45000, .clip [65] 0, [], none, 17⟩,
    ⟨9, .follow, 750, .live 12, [], none, 17⟩, ⟨5, .fixed 217665000 .late, 7500, .clip [68] 0, [], none, 17⟩]
  { live5 (inDr .A) with
    events := es, timeline := resolve es none (some 9), hold := some ⟨9, 100⟩, batch := some (sealed [.delete 1] (some 1)) }

theorem test_commit_protects_held : lastReply .L (after (.commitCompletion ⟨5, .whole⟩)
      { atFrame 217665010 (one heldFollow) with portL := { here with inProgress := some ⟨9, 1⟩ } }) =
    some (.protected_, .commitRefused (.protected_ 9 (some 217665000) none .open .open) 17 230 none) := by decide +kernel

theorem test_commit_passes : lastReply .L (after (.commitCompletion ⟨5, .whole⟩) (closing [replace5] (some 1))) =
      some (.ok, .committed 18 231 5 0 none) ∧
    of5 (fun l => (l.events.map (·.writtenRev), l.timeline.getLast?.map fun r => r.stop))
      (after (.commitCompletion ⟨5, .whole⟩) (closing [replace5] (some 1))) = some ([17, 17, 17, 17, 18], some (some 217764750)) := by
  decide +kernel

/-- The steps of a completion one at a time (R105): READ CURSOR's timeline revision, and READ EVENTS, after each. -/
theorem test_commit_in_steps :
    let step := after (.commitCompletion ⟨5, .oneStep⟩)
    let s := closing [replace5] (some 1)
    [s, step s, step (step s), step (step (step s)), step (step (step (step s)))].map (fun s =>
      (of5 (·.timelineRev) s, of5 (·.shownMirror.2) s, lastStatus .A (after (.readEvents hA (.fields ⟨5, none, 2⟩)) s))) =
      [(some 17, some 17, some .busy), (some 17, some 17, some .busy), (some 18, some 17, some .busy),
       (some 18, some 17, some .busy), (some 18, some 18, some .ok)] := by decide +kernel

/-- A TAKE between the first step and the second is COMPUTING, and its cue comes from the timeline installed: e6 follows
e1 (R105, R136). -/
theorem test_take_between_steps :
    let s1 := after (.commitCompletion ⟨5, .oneStep⟩) (one { live5 inMain with batch := some (sealed [insert6] (some 1)) })
    let s2 := after (.take hA (.fields ⟨5, some .now⟩)) s1
    of5 (fun l => l.custody.takeover.map fun k => k.cue.state) s2 = some (some .computing) ∧
    of5 (fun l => (l.custody.takeover.bind fun k => k.cue.body).map fun
        | .event c _ => (c.id, c.next)
        | _ => (0, none)) (after (.commitCompletion ⟨5, .whole⟩) s2) = some (some (1, some 6)) := by decide +kernel

/-! ## Switch frames -/

/-- The worked takeover at its switch frame, reached with cue 1 in a state. -/
def due (st : CueState) (attempt : Nat) : State :=
  atFrame 217640025 (with5 { inTaking st attempt with switchDue := true })

/-- Step 4: the miss of cue 1. -/
theorem test_miss : of5 (fun l => (l.custody.output, l.custody.custodian, l.flags))
      (after (.switchFrameReached 5) (due .issued 1)) = some (.safe, none, [.safeEntry, .cueMissed]) ∧
    of5 (fun l => l.custody.takeover.map fun k => (k.attempt, k.target, k.cue.number, k.cue.switchFrame))
      (after (.switchFrameReached 5) (due .issued 1)) = some (some (2, .A, 2, 217640050)) := by decide +kernel

/-- Step 8, for cue 1: the switch, its entry and the segment of e1 at first offset 20,025. -/
theorem test_switch : of5 (fun l => (l.custody.state, l.custody.output, l.segment))
      (after (.switchFrameReached 5) (due .ready 1)) = some (.dr, .drA, some ⟨1, 217640025, 20025, .drA⟩) ∧
    (after (.switchFrameReached 5) (due .ready 1)).asRun.ring.map (·.body) = [.switch .main .drA .policy (some 1)] := by
  decide +kernel

/-- A swap from A to B at its switch frame, e1 on air under DR_A since 25 frames. -/
def swapDue : Live :=
  { live5 { inDr .A with
      state := .taking, switchDue := true
      takeover := some { takeover1 .ready 1 with target := .B, origin := .swap, prevState := .dr, prevOutput := .drA } } with
    segment := some ⟨1, 217640000, 20000, .drA⟩ }

/-- R169: close, record, open. -/
theorem test_swap_switch : of5 (fun l => (l.custody.output, l.segment, l.latestSeq))
      (after (.switchFrameReached 5) (atFrame 217640025 (one swapDue))) = some (.drB, some ⟨1, 217640025, 20025, .drB⟩, 2) ∧
    (after (.switchFrameReached 5) (atFrame 217640025 (one swapDue))).asRun.ring.map (·.body) =
      [.aired 1 217640000 20000 25 .drA, .switch .drA .drB .swap (some 1)] := by decide +kernel

/-- The worked handback at step 6, its next as-run entries numbered 4,005 and 4,006. -/
def returning (isDue : Bool) : State :=
  { atFrame 217650050 (one { live5 { inReturning with switchDue := isDue } with
      segment := some ⟨1, 217640050, 20050, .drA⟩, latestSeq := 4002 }) with
    asRun := { ring := [⟨4004, 9, 4, 217650040, .r25, .skipped 9⟩], nextSeq := some 4005, dropped := 0 } }

theorem test_return_switch : of5 (fun l => (l.custody.state, l.custody.output, l.segment, l.latestSeq))
      (after (.returnSwitchFrame 5) (returning true)) = some (.main, .main, none, 4006) ∧
    (after (.returnSwitchFrame 5) (returning true)).asRun.ring.map (fun e => (e.seq, e.body)) =
      [(4004, .skipped 9), (4005, .aired 1 217640050 20050 10000 .drA), (4006, .switch .drA .main .return_ none)] := by
  decide +kernel

/-! ## Lines and ports -/

theorem test_bad_frame : lastReply .B (after (.badFrame .B .check) house) = some (.badFrame, .empty) ∧
    (after (.badFrame .B .check) house).capture =
      some ⟨.lineError, none, some .B, some 217640000, .line .badFrame, false, false⟩ := by decide +kernel

theorem test_line_states : ((after (.badFrame .A .length) house).portA.receive, (after (.lineBreak .A) house).portA.receive,
      (after (.lineIdle .A) (after (.badFrame .A .length) house)).portA.receive,
      (after (.lineReturnsToMark .A) (after (.lineBreak .A) house)).portA.receive) =
    (.discarding, .inBreak, .hunting, .hunting) := by decide +kernel

theorem test_break_withdraws_ready : of5 (fun l => l.custody.takeover.map fun k => k.cue.state)
    (after (.lineBreak .A) (with5 (inTaking .ready 1))) = some (some .issued) := by decide +kernel

theorem test_port_reset_while_busy :
    lastReply .A (after (.portReset hA (.fields ())) { house with portA := { here with inProgress := some ⟨9, 1⟩ } }) =
      some (.ok, .attentionSet ⟨false, false, false, false, false, false⟩) := by decide +kernel

theorem test_unknown_request : lastStatus .B (after (.unknownRequest hB 29) house) = some .unknownRequest := by
  decide +kernel

/-- The worked takeover, step 1: index 8 takes at the junction, toward A. -/
theorem test_presence_unhealthy : of5 (fun l => (l.custody.state, l.custody.lastEval.map fun e => (e.index, e.outcome),
      l.custody.takeover.map fun k => (k.target, k.cue.switchFrame)))
    (after (.presence hL (.fields [⟨1205, some false, 230⟩])) (with5 inMain)) =
      some (.taking, some (8, .takeStarted), some (.A, 217640025)) := by decide +kernel

/-- R210: a healthy flag of neither value applies none of the entries. -/
theorem test_presence_bad_flag : lastStatus .L (after (.presence hL (.fields [⟨1205, some false, 230⟩, ⟨1, none, 0⟩]))
      (with5 inMain)) = some .badField ∧
    of5 (·.custody.m) (after (.presence hL (.fields [⟨1205, some false, 230⟩, ⟨1, none, 0⟩])) (with5 inMain)) =
      some false := by decide +kernel

/-! ## The house and the Channel Table -/

theorem test_set_time : (after (.setTime hA (.fields ⟨100, ⟨18, 0, 0, 0⟩⟩)) house).reference.pendingSet =
    some ⟨217620000, .A, 2, false⟩ := by decide +kernel

theorem test_configure_house : (after (.configureHouse hA (.fields { keepHouse with rate := .give (some .r50) })) house
      ).reference = ⟨.unset, 0, some ⟨1200000000, .pulse⟩, none⟩ ∧
    lastStatus .A (after (.configureHouse hA (.fields { keepHouse with rate := .give (some .r50) })) (with5 inMain)) =
      some .channelActive := by decide +kernel

/-- Slots 0 to 7 in service with a quota of 1,024 each, as step 3 of the worked sequence leaves them. -/
def fullPool : State :=
  (List.range 8).foldl (fun s n => onSlot n s fun i => s.setChan i
    ⟨{ defaultParams with serviceId := some (1101 + n), quota := 1024 }, some (live5 inMain)⟩) house

/-- Step 4, CONFIG_INVALID, and step 5, a quota sum of 8,208. -/
theorem test_configure_channel_refused : lastStatus .A (after (.configureChannel hA (.fields { keepAll with
      channel := 8, serviceId := .give 1109, guard := .give 200 })) fullPool) = some .configInvalid ∧
    lastReply .A (after (.configureChannel hA (.fields { keepAll with
      channel := 8, serviceId := .give 1109, quota := .give 16 })) fullPool) =
      some (.quota, .quotaRefused 8208 0 .sum) := by decide +kernel

theorem test_configure_channel_enters :
    (after (.configureChannel hA (.fields { keepAll with channel := 5, serviceId := .give 1205 })) house).custodyState 5 =
      .main ∧
    (after (.configureChannel hA (.fields { keepAll with inService := some false })) (with5 inMain)).custodyState 5 =
      .idle := by decide +kernel

theorem test_read_channel : lastStatus .A (after (.readChannel hA (.fields 31)) house) = some .ok ∧
    lastStatus .A (after (.readChannel hA (.fields 32)) house) = some .unknownChannel ∧
    lastStatus .L (after (.readChannel hL (.fields 1205)) house) = some .unknownService := by decide +kernel

/-! ## Batches and reads -/

/-- Steps 1 and 2 of the worked commit. -/
theorem test_open_batch : lastReply .L (after (.openBatch hL (.fields ⟨1205, some .edit, some 17⟩)) (with5 (inDr .A))) =
    some (.ok, .batchOpened 5 1205 17 230 250 7) := by decide +kernel
theorem test_add_entries : lastReply .L (after (.addEntries hL (.fields ⟨1205, [replace5, insert6], false⟩))
    (one { live5 (inDr .A) with batch := some (opened 200) })) = some (.ok, .entriesHeld 2 2 false) := by decide +kernel
theorem test_close_batch : of5 (fun l => l.batch.map (·.phase)) (after (.closeBatch hL (.fields ⟨1205, some 231⟩))
    (one { live5 (inDr .A) with batch := some (opened 200) })) = some (some (.sealed (some 231) (some 1))) := by decide +kernel
theorem test_abort_batch : lastReply .A (after (.abortBatch hA (.fields 5))
    (one { live5 (inDr .A) with batch := some (opened 200) })) = some (.ok, .leaseHolder (some .L)) := by decide +kernel

/-- Steps 2 and 4 of the worked reading. -/
theorem test_read_events : (after (.readEvents hA (.fields ⟨5, none, 2⟩)) (with5 inMain)).portA.readPos =
      some ⟨5, some 2⟩ ∧
    lastStatus .A (after (.readEvents hA (.fields ⟨5, some 3, 20⟩)) (with5 inMain)) = some .adjusted := by decide +kernel
theorem test_read_next : lastStatus .A (after (.readNextEvents hA (.fields 16))
      { with5 inMain with portA := { here with readPos := some ⟨5, some 102⟩ } }) = some .positionLost ∧
    (after (.readNextEvents hA (.fields 16)) { with5 inMain with portA := { here with readPos := some ⟨5, some 5⟩ } }
      ).portA.readPos = some ⟨5, some 5⟩ := by decide +kernel
theorem test_read_cursor : lastStatus .A (after (.readCursor hA (.fields ⟨5, .time ⟨100, ⟨18, 13, 20, 0⟩⟩⟩)) (with5 inMain)) =
      some .ok ∧
    lastStatus .A (after (.readCursor hA (.fields ⟨5, .now⟩)) { with5 inMain with
      reference := ⟨.unset, 0, none, none⟩ }) = some .timeUnset := by decide +kernel

/-! ## Custody, holds and handback -/

theorem test_take : lastReply .B (after (.take hB (.fields ⟨5, some .now⟩)) (with5 (inDr .A))) =
      some (.ok, .taken .B .now (frameField .r25 217640025) 3 .issued) ∧
    lastStatus .B (after (.take hB (.fields ⟨5, some .now⟩)) (with5 (inTaking .issued 1))) = some .state := by decide +kernel
theorem test_cancel_take : of5 (fun l => (l.custody.state, l.custody.output))
      (after (.cancelTake hB (.fields 5)) (with5 (inTaking .issued 1))) = some (.main, .main) ∧
    (after (.cancelTake hB (.fields 5)) (with5 (inTaking .issued 1))).asRun.ring.map (·.body) =
      [.switch .main .main .cancel (some 1)] := by decide +kernel
theorem test_fetch_cue : lastStatus .A (after (.fetchCue hA (.fields 5)) (with5 (inTaking .issued 1))) = some .ok ∧
    lastStatus .B (after (.fetchCue hB (.fields 5)) (with5 (inTaking .issued 1))) = some .notTarget ∧
    lastStatus .A (after (.fetchCue hA (.fields 5)) (with5 inReturning)) = some .state := by decide +kernel
/-- R137: a cue of kind GAP whose cursor has turned BEFORE is refreshed in place: number and READY stand. -/
theorem test_cue_before_flag :
    let k : Takeover := { takeover1 .ready 1 with cue := ⟨7, 217600000, .ready, 0, some (.gap false 1 .resolved 20000)⟩ }
    ((live5 { inTaking .ready 1 with takeover := some k }).timelineChanged).custody.takeover =
      some { k with cue := ⟨7, 217600000, .ready, 1, some (.gap true 1 .resolved 20000)⟩ } := by decide +kernel

/-- R29: FETCH CUE carries e1's stored fixed start, day 100, 18:00:00:00. -/
theorem test_cue_fixed_start : (lastReply .A (after (.fetchCue hA (.fields 5)) (with5 (inTaking .issued 1)))).map (fun r =>
      match r.2 with
      | .cue r => r.fixedStart
      | _ => none) = some (some ⟨217620000, some ⟨100, ⟨18, 0, 0, 0⟩⟩⟩) := by decide +kernel

theorem test_cue_ready : lastReply .A (after (.cueReady hA (.fields ⟨5, 2⟩)) (with5 (inTaking .issued 1))) =
      some (.staleCue, .currentCue 1) ∧
    of5 (fun l => l.custody.takeover.map fun k => k.cue.state)
      (after (.cueReady hA (.fields ⟨5, 1⟩)) (with5 (inTaking .issued 1))) = some (some .ready) := by decide +kernel

/-- The worked sequence of Channel Custody, step 4: index 11 takes at once toward A, at 217,701,035. -/
theorem test_arm : lastReply .A (after (.arm hA (.fields ⟨some .add, [5, 6, 5]⟩)) (atFrame 217701010 (with5 { inMain with
      m := true, l := true, behind := some 217700000 }))) =
      some (.ok, .armed [5] [6] [(5, some .takeStarted)]) ∧
    of5 (fun l => l.custody.takeover.map fun k => k.cue.switchFrame)
      (after (.arm hA (.fields ⟨some .add, [5, 6, 5]⟩)) (atFrame 217701010 (with5 { inMain with
        m := true, l := true, behind := some 217700000 }))) = some (some 217701035) := by decide +kernel

/-- A pattern of "any" in every field. -/
def anyPattern : MatchFields := ⟨.any, .any, .any, .any, .any, .any, .any, .any, .any, .any⟩

theorem test_match : lastReply .L (after (.matchChannels hL (.fields { anyPattern with state := .is .dr, m := .is false }))
      (with5 (inDr .A))) = some (.ok, .matched 1 [(5, 1205)]) ∧
    lastReply .L (after (.matchChannels hL (.fields { anyPattern with state := .is .idle })) (with5 (inDr .A))) =
      some (.ok, .matched 0 []) := by decide +kernel

/-- e4 on air under DR, before the hold. -/
def onAir4 : Live :=
  let es := list5.drop 3
  { held5 0 with
    timeline := resolve es (some 217665750) none, hold := none
    followed := some (cursorAt es (resolve es (some 217665750) none) 217755000) }

/-- Steps 1 and 3 of the worked hold. -/
theorem test_hold : lastReply .A (after (.hold hA (.fields 5)) (atFrame 217755000 (one onAir4))) =
    some (.ok, .heldNow 4 89250 360000 (frameField .r25 218115000)) := by decide +kernel
theorem test_release_hold : of5 (fun l => l.timeline.map fun r => (r.start, r.duration, r.lateness))
      (after (.releaseHold hA (.fields ⟨5, ⟨100, ⟨19, 33, 20, 0⟩⟩⟩)) (atFrame 217759000 (one (held5 356000)))) =
      some [(some 217665750, .frames 94250, some 0), (some 217760000, .frames 3250, some 4250)] ∧
    lastStatus .A (after (.releaseHold hA (.fields ⟨5, ⟨100, ⟨19, 33, 20, 0⟩⟩⟩))
      (atFrame 217757000 (one (held5 358000)))) = some .adjusted := by decide +kernel

/-- The worked handback before its RETURN: Port L's mark, slot 5's latest 4,002, the log's newest 4,003. -/
def beforeReturn (mark : Nat) : State :=
  { atFrame 217650000 (one { live5 (inDr .A) with segment := some ⟨1, 217640050, 20050, .drA⟩, latestSeq := 4002 }) with
    portL := { here with mark := mark, follow := true }
    asRun := { ring := [⟨4003, 9, 4, 217650000, .r25, .skipped 9⟩], nextSeq := some 4004, dropped := 0 } }

/-- RETURN of slot 5 at 18:20:02:00 on e1 with an offset. -/
def returnAt (offset : Nat) : Instr := .handback hL (.fields ⟨1205, ⟨100, ⟨18, 20, 2, 0⟩⟩, 1, offset⟩)

/-- Steps 1, 3 and 4 of the worked handback. -/
theorem test_return_refused : lastReply .L (after (returnAt 30050) (beforeReturn 3990)) =
      some (.asRunPending, .asRunPending 3990 4002 4003) ∧
    lastStatus .L (after (returnAt 30040) (beforeReturn 4003)) = some .cursorMismatch := by decide +kernel
theorem test_return_accepted : of5 (fun l => (l.custody.state, l.custody.ret.map (·.frame)))
      (after (returnAt 30050) (beforeReturn 4003)) = some (.returning, some 217650050) ∧
    lastReply .L (after (returnAt 30050) (beforeReturn 4003)) =
      some (.ok, .returning (frameField .r25 217650050) 1 30050 (some 30050) (some .A) true 4003 4002) := by decide +kernel
/-- The custodian's presence in the reply to RETURN: PRESENT 0, ABSENT 1 (R215), before the two marks. -/
theorem test_return_presence_code :
    (bodyReplyChars .r25 (.returning ⟨0, none⟩ 1 0 none (some .A) true 0 0))[20]? = some 0 ∧
    (bodyReplyChars .r25 (.returning ⟨0, none⟩ 1 0 none (some .A) false 0 0))[20]? = some 1 := by decide +kernel

theorem test_cancel_return : of5 (fun l => (l.custody.state, l.custody.output, l.flags))
    (after (.cancelReturn hA (.fields 5)) (with5 inReturning)) = some (.dr, .drA, [.returnCancelled]) := by decide +kernel

/-! ## The as-run log, status and faults -/

/-- Entries 4,004 to 4,009 of the worked sequence of The As-Run Log; 4,006 is slot 9's. -/
def logged : AsRun :=
  { ring := [⟨4004, 5, 1205, 0, .r25, .skipped 1⟩, ⟨4005, 5, 1205, 0, .r25, .skipped 1⟩, ⟨4006, 9, 4, 0, .r25, .skipped 1⟩,
      ⟨4007, 5, 1205, 0, .r25, .skipped 1⟩, ⟨4008, 5, 1205, 0, .r25, .skipped 1⟩, ⟨4009, 5, 1205, 0, .r25, .skipped 1⟩]
    nextSeq := some 4010, dropped := 0 }

/-- Port B with a mark, in follow mode, before that log. -/
def reader (mark : Nat) : State := { house with asRun := logged, portB := { here with mark := mark, follow := true } }

/-- The entries, last examined number and more flag of a report. -/
def readOf (r : AsRunReport) : List Nat × Option Nat × Bool := (r.entries.map (·.entry.seq), r.lastExamined, r.more)

/-- Steps 5 and 6. -/
theorem test_read_as_run :
    readOf ((reader 4003).asRunReport .B ⟨2, .members [5]⟩) = ([4004, 4005], some 4005, true) ∧
    readOf ((reader 4005).asRunReport .B ⟨20, .members [5]⟩) = ([4007, 4008, 4009], some 4009, false) ∧
    (after (.readAsRun hB (.fields ⟨20, .members [5]⟩)) (reader 4005)).portB.mark = 4009 ∧
    lastStatus .B (after (.readAsRun hB (.fields ⟨20, .members [5]⟩)) (reader 4005)) = some .adjusted := by decide +kernel

/-- What R162 puts in every reply to READ AS-RUN stands in those that are not carried out too: the newest and oldest
numbers, the full flag and the dropped count. -/
theorem test_read_as_run_refused :
    ([⟨0, .all⟩, ⟨1, .members []⟩, ⟨1, .members [32]⟩] : List AsRunFields).map
        (fun f => lastReply .B (after (.readAsRun hB (.fields f)) (reader 4003))) =
      [some (.badField, .asRunRefused 4009 (some 4004) false 0), some (.badField, .asRunRefused 4009 (some 4004) false 0),
        some (.unknownChannel, .asRunRefused 4009 (some 4004) false 0)] ∧
    lastReply .B (after (.readAsRun hB .misfit) (reader 4003)) =
      some (.badField, .asRunRefused 4009 (some 4004) false 0) := by decide +kernel

/-- Step 8. -/
theorem test_mark : (after (.mark hB (.fields ⟨5000, some true⟩)) (reader 1977)).portB.mark = 4009 ∧
    lastStatus .B (after (.mark hB (.fields ⟨5000, some true⟩)) (reader 1977)) = some .adjusted ∧
    (after (.mark hB (.fields ⟨5000, some true⟩)) (reader 1977)).asRunWaiting .B = false := by decide +kernel

/-- The worked sequence of Faults and Attention, steps 1 to 4: a report of higher priority overwrites. -/
theorem test_capture_priority :
    let s1 := (with5 inMain).reportChannel 5 .leaseExpired (some .L) .none
    let s2 := s1.reportChannel 5 .cueMissed (some .A) (.miss 1 1 .notReady)
    let s3 := s2.report ⟨.refLost, none, none, none, .none⟩
    (s2.capture.map (·.cls), s3.capture.map (·.cls), s3.houseFlags) = (some .cueMissed, some .cueMissed, [.refLost]) := by
  decide +kernel

theorem test_read_status : (after (.readStatus hL (.fields ())) (house.raiseFault)).portL.reasons =
      ⟨false, false, false, false⟩ ∧
    (after (.readStatus hL (.fields ())) (house.raiseFault)).portA.reasons.fault = true := by decide +kernel

theorem test_read_faults : ((with5 inMain).reportChannel 5 .leaseExpired (some .L) .none).faultsReport.channels =
    [(5, 1205, [.leaseExpired])] := by decide +kernel

theorem test_clear_faults :
    let s := (with5 inMain).reportChannel 5 .leaseExpired (some .L) .none
    of5 (·.flags) (after (.clearFaults hA (.fields ⟨[5, 6], some true⟩)) s) = some [] ∧
    (after (.clearFaults hA (.fields ⟨[5, 6], some true⟩)) s).capture = none ∧
    lastStatus .A (after (.clearFaults hA (.fields ⟨[32], some true⟩)) s) = some .unknownChannel := by decide +kernel

/-! ## A state and operands that meet the hypotheses of each statement -/

theorem ready_one (l : Live) (p : Port) : Ready (one l) p := by cases p <;> exact ⟨⟨rfl, rfl⟩, rfl⟩

theorem ready_house (p : Port) : Ready house p := by cases p <;> exact ⟨⟨rfl, rfl⟩, rfl⟩

theorem inService_one (l : Live) : (one l).inService = [(5, l)] := by
  have e : ∀ i, ((one l).live i).map (fun m => (i, m)) = if i = 5 then some (i, l) else none := by
    intro i
    rw [live_one]
    split <;> rfl
  have h : ∀ is : List Slot, is.filterMap (fun i => if i = 5 then some (i, l) else none) =
      (is.filter fun i => decide (i = 5)).map fun i => (i, l) := by
    intro is
    induction is with
    | nil => rfl
    | cons i is ih => by_cases g : i = 5 <;> simp [g, ih]
  have g : (slots.filter fun i => decide (i = 5)) = [5] := by decide +kernel
  simp only [State.inService, e, h, g, List.map_cons, List.map_nil]

/-- Port L names slot 5 by its service ID. -/
theorem names_one_L (l : Live) : Names (one l) .L 1205 5 l := by
  have h1 : (one l).slotOfService 1205 = some 5 := by
    unfold State.slotOfService
    rw [inService_one]
    rfl
  unfold Names State.address
  simp [h1, live_one]

theorem witness_StepRunsTheFrontCommand : ({ house with pending := [.lineIdle .A] } : State).pending = .lineIdle .A :: [] :=
  rfl

/-- Port A ABSENT, slot 5 in MAIN. -/
def absentA : State := { with5 inMain with portA := resetPort 115200 }

/-- Both automation ports ABSENT, slot 5 in DR under A. -/
def bothAbsent : State := { with5 (inDr .A) with portA := resetPort 115200, portB := resetPort 115200 }

/-- Port L ABSENT, slot 5 in DR with a behind-since frame. -/
def linkBack : State :=
  { with5 { inDr .A with m := true, behind := some 217600000 } with portL := resetPort 115200 }

theorem witness_PresenceChangePrecedesTheRequest :
    (requestOf (.take hA (.fields ⟨5, some .now⟩)) = some (hA, 14) ∧ ¬(hA.port = .L ∧ 14 = 1) ∧
      hears (absentA.port .A).receive = true ∧ absentA.present .A = false) ∧
    (bothAbsent.present (drPort .B) = false ∧ bothAbsent.live 5 = some (live5 (inDr .A)) ∧ (inDr .A).state = .dr ∧
      (inDr .A).custodian = some (drPort (otherDr .B)) ∧ bothAbsent.present (drPort (otherDr .B)) = false) ∧
    (absentA.present (drPort .A) = false ∧ absentA.live 5 = some (live5 inMain) ∧ inMain.state ≠ .dr) ∧
    (linkBack.present .L = false ∧ linkBack.live 5 = some (live5 { inDr .A with m := true, behind := some 217600000 })) :=
  ⟨by decide +kernel, ⟨rfl, rfl, rfl, rfl, rfl⟩, ⟨rfl, rfl, by decide⟩, rfl, rfl⟩

/-- Port L back, with slot 5 in MAIN and its M at 1: the change clears it. -/
theorem witness_PresenceChangePrecedesTheRequest_evaluated :
    let s : State := { with5 { inMain with m := true } with portL := resetPort 115200 }
    s.present .L = false ∧ s.live 5 = some (live5 { inMain with m := true }) ∧
      of5 (fun l => (l.custody.m, l.custody.lastEval)) (s.arrive .L) =
        some (false, some ⟨some 217640000, 0, .none, .none⟩) := ⟨rfl, rfl, by decide +kernel⟩

theorem witness_EveryRequestRestartsPresence : requestOf (.take hA .misfit) = some (hA, 14) ∧
    hears (absentA.port .A).receive = true ∧ exec (.take hA .misfit) absentA = .next (after (.take hA .misfit) absentA) :=
  ⟨rfl, rfl, rfl⟩

/-- A request of Port A in progress. -/
def busyA : State := { house with portA := { here with inProgress := some ⟨9, 1⟩ } }

theorem witness_RequestsThatReachNoBlockAreAnswered :
    (requestOf (.readAsRun hA .misfit) = some (hA, 24) ∧ bodyMisfits (.readAsRun hA .misfit) = true) ∧
    (requestOf (.setTime hA .misfit) = some (hA, 3) ∧ hears (busyA.port .A).receive = true ∧ busyA.present .A = true ∧
      (busyA.port .A).inProgress.isSome = true ∧ 3 ≠ 2) ∧
    (hears (house.port .A).receive = true ∧ house.present .A = true ∧ (house.port .A).inProgress = none ∧
      bodyMisfits (.setTime hA .misfit) = true) ∧
    (requestOf (.unknownRequest hA 29) = some (hA, 29) ∧ requestOf (.unknownRequest hA 0) = some (hA, 0)) := by
  decide +kernel

theorem witness_RolesAreKept :
    (requestOf (.clearFaults hL (.fields ⟨[], some true⟩)) = some (hL, 28) ∧ 28 ∈ drOnlyCodes ∧
      requestOf (.setTime hL (.fields ⟨0, ⟨0, 0, 0, 0⟩⟩)) = some (hL, 3) ∧ 3 ∈ drOnlyCodes ∧
      bodyMisfits (.clearFaults hL (.fields ⟨[], some true⟩)) = false) ∧
    (requestOf (.handback hB (.fields ⟨5, ⟨0, ⟨0, 0, 0, 0⟩⟩, 1, 0⟩)) = some (hB, 20) ∧ hB.port ≠ .L ∧
      bodyMisfits (.handback hB (.fields ⟨5, ⟨0, ⟨0, 0, 0, 0⟩⟩, 1, 0⟩)) = false) ∧ house.storeReady = true ∧
    Ready house .L ∧ Ready house .B ∧ ∀ n, Instr.handback hB (.fields ⟨5, ⟨0, ⟨0, 0, 0, 0⟩⟩, 1, 0⟩) ≠ .unknownRequest hB n :=
  ⟨by decide +kernel, by decide +kernel, rfl, ready_house _, ready_house _, fun _ => nofun⟩

/-- A store still initialising. -/
def initialising : State := { house with storeReady := false }

theorem witness_InitialisingStoreAnswersBusy :
    (requestOf (.configureChannel hL (.fields keepAll)) = some (hL, 5) ∧ 5 ∈ listCodes ∧
      bodyMisfits (.configureChannel hL (.fields keepAll)) = false) ∧
    (requestOf (.readCursor hA (.fields ⟨40, .bad⟩)) = some (hA, 13) ∧ 13 ∈ listCodes ∧
      bodyMisfits (.readCursor hA (.fields ⟨40, .bad⟩)) = false) ∧ initialising.storeReady = false ∧
    Ready initialising .L ∧ ∀ n, Instr.readCursor hA (.fields ⟨40, .bad⟩) ≠ .unknownRequest hA n :=
  ⟨by decide +kernel, by decide +kernel, rfl, ⟨⟨rfl, rfl⟩, rfl⟩, fun _ => nofun⟩

/-- The greatest request fields of RETURN. -/
def greatest : Instr := .handback hL (.fields ⟨65535, ⟨65535, ⟨255, 255, 255, 255⟩⟩, 4294967295, 4294967295⟩)

/-- A batch of every kind of entry, an unreadable record among them. -/
def everyEntry : Instr :=
  .addEntries hL (.fields ⟨1205, [insert6, replace5, .delete 4294967295, .insert none (.unreadable [1, 2, 3])], false⟩)

theorem witness_RequestBodiesDivideBack : ok greatest = true ∧
    encodeRequest greatest = some (hL, 20, [255, 255, 255, 255, 255, 255, 255, 255] ++ List.replicate 8 255) ∧
    ok everyEntry = true ∧ (encodeRequest everyEntry).isSome = true := by decide +kernel

theorem witness_FramesAreTakenAsTheirRequest : ok greatest = true ∧ encodeRequest greatest =
      some (hL, 20, List.replicate 16 255) ∧ (List.replicate 16 (255 : Byte)).length ≤ 2048 ∧
    ((encodeRequest everyEntry).map fun r => decide (r.2.2.length ≤ 2048)) = some true := by decide +kernel

/-! ### The laws: each of a state with slot 5 in service, with a step that bears on it -/

/-- A law of every channel, of a state with the channels of `one l`. -/
theorem everyChannel_of {P : ChannelParams → Live → Prop} {l : Live} {s : State} (e : s.channels = (one l).channels)
    (h : P params5 l) : EveryChannel P s := by
  have := everyChannel_one h
  unfold EveryChannel State.live State.params State.chan at this ⊢
  rw [e]; exact this

/-- A command at the front of the queue. -/
def queued (c : Instr) (s : State) : State := { s with pending := [c] }

theorem steps (c : Instr) (s : State) (t : State) (h : exec c { queued c s with pending := [] } = .next t) :
    step (queued c s) = .next t := h

theorem witness_StepsKeepOutputWithCustodian : OutputLaw (queued (.switchFrameReached 5) (due .ready 1)) ∧
    ∃ t, step (queued (.switchFrameReached 5) (due .ready 1)) = .next t :=
  ⟨everyChannel_of (l := live5 { inTaking .ready 1 with switchDue := true }) rfl (by decide), _, steps _ _ _ rfl⟩

theorem witness_StepsKeepCustodyInAgreement : CustodyLaw (queued (.switchFrameReached 5) (due .issued 1)) ∧
    CustodyLaw (queued (.returnSwitchFrame 5) (returning true)) ∧
    ∃ t, step (queued (.switchFrameReached 5) (due .issued 1)) = .next t :=
  ⟨⟨everyChannel_of (l := live5 { inTaking .issued 1 with switchDue := true }) rfl (by decide),
      everyChannel_of (l := live5 { inTaking .issued 1 with switchDue := true }) rfl
        ⟨rfl, _, rfl, .inl (.inl ⟨rfl, rfl⟩)⟩⟩,
    ⟨everyChannel_of (l := { live5 { inReturning with switchDue := true } with
        segment := some ⟨1, 217640050, 20050, .drA⟩, latestSeq := 4002 }) rfl (by decide),
      everyChannel_of (l := { live5 { inReturning with switchDue := true } with
        segment := some ⟨1, 217640050, 20050, .drA⟩, latestSeq := 4002 }) rfl ⟨rfl, rfl, .inl rfl⟩⟩,
    _, steps _ _ _ rfl⟩

theorem witness_StepsKeepSegmentsUnderDrOutputs : SegmentLaw (queued (.returnSwitchFrame 5) (returning true)) ∧
    ∃ t, step (queued (.returnSwitchFrame 5) (returning true)) = .next t :=
  ⟨everyChannel_of (l := { live5 { inReturning with switchDue := true } with
      segment := some ⟨1, 217640050, 20050, .drA⟩, latestSeq := 4002 }) rfl
      (fun g hg => by cases hg; exact ⟨rfl, rfl⟩), _, steps _ _ _ rfl⟩

theorem witness_StepsKeepTimelinesResolved : TimelineLaw (queued (.hold hA (.fields 5)) (atFrame 217755000 (one onAir4))) ∧
    CueLaw (queued (.fetchCue hA (.fields 5)) (with5 (inTaking .issued 1))) ∧
    (∃ t, step (queued (.hold hA (.fields 5)) (atFrame 217755000 (one onAir4))) = .next t) ∧
    ∃ t, step (queued (.fetchCue hA (.fields 5)) (with5 (inTaking .issued 1))) = .next t :=
  ⟨everyChannel_of (l := onAir4) rfl rfl, everyChannel_of (l := live5 (inTaking .issued 1)) rfl
    (fun k _ hk => by cases hk; rfl), ⟨_, steps _ _ _ rfl⟩, _, steps _ _ _ rfl⟩

theorem witness_StepsKeepTheLogInSequence : LogLaw (queued (.mark hB (.fields ⟨4009, some true⟩)) (reader 4003)) ∧
    ∃ t, step (queued (.mark hB (.fields ⟨4009, some true⟩)) (reader 4003)) = .next t := by
  refine ⟨⟨⟨by decide, by decide, by decide, .inl (by decide)⟩, fun p => by cases p <;> decide, fun i l h => ?_⟩, _,
    steps _ _ _ rfl⟩
  have : ∀ i, (queued (.mark hB (.fields ⟨4009, some true⟩)) (reader 4003)).live i = none := by decide +kernel
  rw [this i] at h; cases h

theorem witness_StepsKeepThePoolsWithinBounds :
    (PoolLaw (queued (.commitCompletion ⟨5, .whole⟩) (closing [replace5] (some 1))) ∧
      StagingLaw (queued (.commitCompletion ⟨5, .whole⟩) (closing [replace5] (some 1)))) ∧
    ∃ t, step (queued (.commitCompletion ⟨5, .whole⟩) (closing [replace5] (some 1))) = .next t :=
  ⟨⟨⟨by decide +kernel, everyChannel_of (l := Live.redraw { live5 (inDr .A) with
        batch := some (sealed [replace5] (some 1)) } params5 (some 217664761)) rfl
        (by unfold ListSound; decide +kernel)⟩,
      by unfold StagingLaw; decide +kernel⟩, _, steps _ _ _ rfl⟩

/-- CONFIGURE CHANNEL that takes slot 5 out of service. -/
def leave5 : Instr := .configureChannel hA (.fields { keepAll with inService := some false })

theorem witness_StepsKeepTheChannelTableSound : ParameterLaw (queued leave5 (with5 inMain)) ∧
    MapLaw (queued leave5 (with5 inMain)) ∧ ∃ t, step (queued leave5 (with5 inMain)) = .next t := by
  refine ⟨⟨by decide, by decide +kernel⟩, ⟨everyChannel_of (l := live5 inMain) rfl rfl, fun i j li lj hi hj _ => ?_⟩,
    _, steps _ _ _ rfl⟩
  have hi' : (one (live5 inMain)).live i = some li := hi
  have hj' : (one (live5 inMain)).live j = some lj := hj
  rw [live_one] at hi' hj'
  by_cases h : i = 5 <;> by_cases g : j = 5 <;> simp_all

/-! ### House time, timelines and events -/

theorem witness_ReportedLabelsNameTheirFrame : maxH .r5994 ≤ maxH .r5994 ∧ maxH .r25 = 141557759999 ∧ 0 ≤ maxH .r2997 := by
  decide

theorem witness_StoreBecomesReady : ∀ i, State.reset.live i = none := by decide +kernel

/-- The last arrival an inserted one, at 80 ms. -/
def inserted80 : State := { at80 with reference := ⟨.flywheel, 217620001, some ⟨ms 80, .timebase⟩, none⟩ }

theorem witness_ArrivalsAdvanceTheHouseFrame : at80.reference.pendingSet = none ∧
    (∀ la, at80.reference.last = some la → nominalPeriod at80.house.rate / 2 ≤ ms 100 - la.moment) ∧
    timebaseDeadline at80.house.rate at80.reference.last ≤ ms 140 ∧ at80.reference.refState = .locked ∧
    ms 140 - 1 < timebaseDeadline at80.house.rate at80.reference.last ∧
    (∃ la, at80.reference.last = some la ∧ la.source = .pulse ∧
      ms 100 - 1 - la.moment < nominalPeriod at80.house.rate / 2) ∧
    inserted80.reference.pendingSet = none ∧ ∃ la, inserted80.reference.last = some la ∧ la.source = .timebase ∧
      ms 100 - 1 - la.moment < nominalPeriod inserted80.house.rate / 2 :=
  ⟨rfl, fun la h => by cases h; decide, by decide, rfl, by decide, ⟨_, rfl, rfl, by decide⟩, rfl, _, rfl, rfl, by decide⟩

/-- Slot 5 under DR_A on e2 one frame before its end, where e3 is skipped and e4 begins, with an OPEN batch. -/
def beforeSkip : Live :=
  { live5 (inDr .A) with
    followed := some (cursorAt list5 timeline5 217665749), segment := some ⟨2, 217665000, 0, .drA⟩
    batch := some (opened 2) }

theorem quiet_one {l : Live} {s : State} (e : s.channels = (one l).channels) (h0 : ∀ p, (s.port p).presence ≠ some 0)
    (h1 : l.custody.switchDue = false) (h2 : ∀ hr, l.hold = some hr → hr.timer ≠ 0)
    (h3 : ∀ b, l.batch = some b → b.phase ≠ .opened 0) : Quiet s :=
  ⟨h0, everyChannel_of (P := fun _ m => m.custody.switchDue = false ∧ (∀ hr, m.hold = some hr → hr.timer ≠ 0) ∧
    ∀ b, m.batch = some b → b.phase ≠ .opened 0) e ⟨h1, h2, h3⟩⟩

/-- A quiet arrival: in DR, advancing, with an entry to write; held; and in TAKING one frame before the switch frame. -/
theorem witness_ArrivalsAdvanceTheHouseFrame_channels :
    (Quiet (atFrame 217665749 (one beforeSkip)) ∧
      IsArrival (atFrame 217665749 (one beforeSkip)) (ms 440) [] .pulse (.housePulse (ms 440) []) ∧
      arrivalFrame (atFrame 217665749 (one beforeSkip)) = 217665750 ∧ isDrOutput beforeSkip.custody.output = true ∧
      (∃ f, beforeSkip.followed = some (.event f) ∧ f.id = 2) ∧
      (∀ j m, j ≠ 5 → (atFrame 217665749 (one beforeSkip)).live j = some m → isDrOutput m.custody.output = false) ∧
      arrivalEntries beforeSkip 217665750 = [.aired 2 217665000 0 750 .drA, .skipped 3]) ∧
    Quiet (one (held5 1)) ∧
    (Quiet (atFrame 217640024 (with5 (inTaking .ready 1))) ∧
      arrivalFrame (atFrame 217640024 (with5 (inTaking .ready 1))) = (takeover1 .ready 1).cue.switchFrame) ∧
    (Quiet { with5 inMain with reference := ⟨.unset, 0, none, none⟩ } ∧
      IsArrival { with5 inMain with reference := ⟨.unset, 0, none, none⟩ } (ms 60) [] .timebase
        (.insertedArrival (ms 60) [])) := by
  refine ⟨⟨quiet_one (l := beforeSkip) rfl (fun p => by cases p <;> decide) rfl nofun
      (fun b h => by cases h; decide), .inl ⟨rfl, rfl, fun la h => by cases h; decide⟩, by decide +kernel, rfl,
      ⟨_, rfl, rfl⟩, fun j m hj hm => ?_, by decide +kernel⟩,
    quiet_one (l := held5 1) rfl (fun p => by cases p <;> decide) rfl (fun hr h => by cases h; decide) nofun,
    ⟨quiet_one (l := live5 (inTaking .ready 1)) rfl (fun p => by cases p <;> decide) rfl nofun nofun, by decide +kernel⟩,
    quiet_one (l := live5 inMain) rfl (fun p => by cases p <;> decide) rfl nofun nofun, .inr ⟨rfl, rfl, by decide⟩⟩
  have hm' : (one beforeSkip).live j = some m := hm
  rw [live_one] at hm'
  simp [hj] at hm'

/-- A pending set of Port A, with a channel or without. -/
def setting (s : State) : State := { s with reference := { at80.reference with pendingSet := some ⟨217620000, .A, 9, true⟩ } }

theorem witness_PendingTimeSetIsDecidedOnTheArrival :
    (setting house).reference.pendingSet = some ⟨217620000, .A, 9, true⟩ ∧
    (setting (with5 inMain)).settleDue.channelActive = false ∧ (setting (with5 (inDr .B))).settleDue.channelActive = true ∧
    IsArrival (setting house) (ms 100) [] .pulse (.housePulse (ms 100) []) ∧
    IsArrival (setting house) (ms 140) [5] .timebase (.insertedArrival (ms 140) [5]) :=
  ⟨rfl, by decide +kernel, by decide +kernel, .inl ⟨rfl, rfl, fun la h => by cases h; decide⟩, .inr ⟨rfl, rfl, by decide⟩⟩

theorem witness_HoldLimitReleasesTheHold : slotOf 5 = some 5 ∧ (one (held5 0)).live 5 = some (held5 0) ∧
    (held5 0).hold = some ⟨4, 0⟩ ∧ (one (held5 1)).live 5 = some (held5 1) ∧ (held5 1).hold = some ⟨4, 1⟩ :=
  ⟨rfl, rfl, rfl, rfl, rfl⟩

theorem witness_LeaseExpiryEndsTheBatch : slotOf 5 = some 5 ∧
    (one { live5 inMain with batch := some (opened 0) }).live 5 = some { live5 inMain with batch := some (opened 0) } ∧
    (opened 0).phase = .opened 0 ∧ (opened 1).phase = .opened 1 := ⟨rfl, rfl, rfl, rfl⟩

/-- Port L's timer at 0, with slot 5 RETURNING. -/
def linkDrops : State := { returning false with portL := { here with presence := some 0 } }

theorem witness_LinkAbsenceMarksEveryChannel : CustodyLaw linkDrops ∧ linkDrops.portL.presence = some 0 ∧
    (linkDrops.live 5).map (fun l => l.custody.state) = some .returning ∧ (linkDrops.port .A).presence ≠ some 0 :=
  ⟨⟨everyChannel_of (l := { live5 inReturning with
        segment := some ⟨1, 217640050, 20050, .drA⟩, latestSeq := 4002 }) rfl (by decide),
      everyChannel_of (l := { live5 inReturning with
        segment := some ⟨1, 217640050, 20050, .drA⟩, latestSeq := 4002 }) rfl ⟨rfl, rfl, .inl rfl⟩⟩,
    rfl, rfl, by decide +kernel⟩

/-- Port L's timer at 0, with slot 5 in MAIN and healthy. -/
def linkDropsInMain : State := { with5 inMain with portL := { here with presence := some 0 } }

/-- A return to cancel with its entry's number, and a channel in MAIN whose M changes. -/
theorem witness_LinkAbsenceMarksEveryChannel_entries : linkDrops.asRun.nextSeq = some 4005 ∧
    (slots.filter fun i => decide (linkDrops.custodyState i = .returning)) = [5] ∧ 4005 + [5].length ≤ 281474976710655 ∧
    (CustodyLaw linkDropsInMain ∧ linkDropsInMain.portL.presence = some 0 ∧
      linkDropsInMain.live 5 = some (live5 inMain) ∧ inMain.state = .main ∧ inMain.m ≠ true) :=
  ⟨rfl, by decide +kernel, by decide,
    ⟨everyChannel_of (l := live5 inMain) rfl (by decide),
      everyChannel_of (l := live5 inMain) rfl ⟨rfl, rfl, .inl ⟨rfl, rfl⟩⟩⟩, rfl, rfl, rfl, by decide⟩

/-- Port A's presence timer at 0, with slot 5 under a custody. -/
def losing (c : Custody) : State := { with5 c with portA := { here with presence := some 0 } }

/-- A swap from A to B under way. -/
def swapping : Custody :=
  { inDr .A with state := .taking, takeover := some { takeover1 .issued 1 with target := .B, prevState := .dr } }

theorem witness_CustodianAbsenceStartsASwap :
    ((lostA.port (drPort .A)).presence = some 0 ∧ lostA.live 5 = some (live5 (inDr .A)) ∧ (inDr .A).state = .dr ∧
      (inDr .A).custodian = some (drPort .A) ∧ lostA.present (drPort (otherDr .A)) = true ∧
      State.present { lostA with portB := resetPort 115200 } (drPort (otherDr .A)) = false ∧ lostA.asRun.nextSeq = some 1) ∧
    (losing inReturning).live 5 = some (live5 inReturning) ∧
    ((losing swapping).live 5 = some (live5 swapping) ∧ swapping.custodian = some (drPort .A) ∧
      swapping.takeover = some { takeover1 .issued 1 with target := .B, prevState := .dr }) ∧
    ((losing (inTaking .issued 1)).live 5 = some (live5 (inTaking .issued 1)) ∧ (takeover1 .issued 1).target = .A ∧
      (takeover1 .issued 1).prevState ≠ .dr ∧ (losing (inTaking .issued 1)).present (drPort (otherDr .A)) = true ∧
      State.present { losing (inTaking .issued 1) with portB := resetPort 115200 } (drPort (otherDr .A)) = false) :=
  ⟨⟨rfl, rfl, rfl, rfl, rfl, rfl, rfl⟩, rfl, ⟨rfl, rfl, rfl⟩, rfl, rfl, by decide, rfl, rfl⟩

/-! ### Commits and switch frames -/

theorem ok_of {ε α : Type} {x : Except ε α} {a : α} (h : x.toOption = some a) : x = .ok a := by
  cases x with
  | error e => cases h
  | ok b => cases h; rfl

theorem someOk {ε α : Type} {x : Except ε α} (h : x.toOption.isSome = true) : ∃ a, x = .ok a := by
  cases x with
  | error e => cases h
  | ok b => exact ⟨b, rfl⟩

theorem someError {ε α : Type} {x : Except ε α} (h : x.toOption.isSome = false) : ∃ e, x = .error e := by
  cases x with
  | error e => exact ⟨e, rfl⟩
  | ok b => cases h

/-- Slot 5 of `closing`. -/
def closingLive (es : List Entry) (tag : Option Nat) : Live :=
  Live.redraw { live5 (inDr .A) with batch := some (sealed es tag) } params5 (some 217664761)

theorem witness_PassedCommitIsApplied : slotOf 5 = some 5 ∧
    (closing [replace5] (some 1)).live 5 = some (closingLive [replace5] (some 1)) ∧
    (closingLive [replace5] (some 1)).batch = some (sealed [replace5] (some 1)) ∧
    (closingLive [replace5] (some 1)).completion = none ∧
    (sealed [replace5] (some 1)).phase = .sealed (some 231) (some 1) ∧
    (∃ t, validate .r25 params5 (closingLive [replace5] (some 1)) (some 217664761) (sealed [replace5] (some 1)) = .ok t) ∧
    ∃ t, validate .r25 params5 (closingLive [replace5] none) (some 217664761) (sealed [replace5] none) = .ok t :=
  ⟨rfl, rfl, rfl, rfl, rfl, someOk (by decide +kernel), someOk (by decide +kernel)⟩

/-- Slot 5 in TAKING with a completion at a stage. -/
def completing (stage : CompletionStage) : Live :=
  { live5 (inTaking .computing 1) with
    batch := some (sealed [replace5] none)
    completion := some ⟨stage, 231, false, 5, 17, .passed 0 0⟩ }

/-- The record that an entry of the tests stages, its start mode apart. -/
def staged (id : Nat) : StagedRecord := .fields ⟨id, .clip, false, false, 0, 750, none, some [69], some 0, none, []⟩

/-- The stages of a completion, each kind of entry on a list that has the id and on one that has not, and the lists that
a RESYNC keeps. -/
theorem witness_PassedCommitIsApplied_clauses :
    (∀ st, (one (completing st)).live 5 = some (completing st) ∧
      (completing st).batch = some (sealed [replace5] none) ∧ (sealed [replace5] none).phase = .sealed (some 231) none ∧
      (completing st).completion = some ⟨st, 231, false, 5, 17, .passed 0 0⟩ ∧
      (completing st).custody.takeover = some (takeover1 .computing 1)) ∧
    ((readRecord .r25 (.unreadable [])).isNone = true ∧ (readRecord .r25 (staged 6)).map (·.1.id) = some 6 ∧
      (readRecord .r25 (staged 2)).map (·.1.id) = some 2) ∧
    ((∃ e ∈ list5, e.id = 2) ∧ (¬∃ e ∈ list5, e.id = 6) ∧
      (∃ e, list5 = list5.take 1 ++ e :: list5.drop 2 ∧ e.id = 2 ∧ ∀ x ∈ list5.take 1 ++ list5.drop 2, x.id ≠ 2)) ∧
    (∃ e ∈ list5.take 2, e.id = recordId (staged 2)) ∧ (∀ e ∈ list5.take 2, e.id ≠ recordId (staged 6)) ∧
    ((closingLive [] none).custody.state = .dr ∧
      ∃ p e, (closingLive [] none).protectedSet.getLast? = some p ∧
        (closingLive [] none).events = list5.take 3 ++ e :: list5.drop 4 ∧ e.id = p.contents.id ∧
        ∀ x ∈ list5.take 3, x.id ≠ e.id) :=
  ⟨fun _ => ⟨rfl, rfl, rfl, rfl, rfl⟩, by decide, ⟨by decide, by decide, _, rfl, rfl, by decide⟩, by decide, by decide, rfl,
    _, _, rfl, rfl, rfl, by decide⟩

/-- Slot 5 in MAIN, stale and behind, with a RESYNC batch of Port L under a declared revision. -/
def resyncing (declared : Nat) : Live :=
  { live5 { inMain with s := true, l := true, behind := some 217600000, mainRev := some 231 } with
    stale := true
    batch := some ⟨.L, .resync, none, [], 0, false, .sealed (some declared) none⟩ }

/-- A commit that catches up clears behind-since, L and S with one evaluation; one that does not clears S alone. -/
theorem witness_PassedCommitIsApplied_custody :
    let left := fun (d : Nat) => of5 (fun l => (l.custody.behind, l.custody.l, l.custody.s, l.custody.lastEval.map (·.index)))
      (after (.commitCompletion ⟨5, .whole⟩) (one (resyncing d)))
    (∀ d, (one (resyncing d)).live 5 = some (resyncing d) ∧ (resyncing d).custody.state = .main ∧
      (resyncing d).completion = none) ∧
    (∃ tr, validate .r25 params5 (resyncing 231) (some 217640000) ⟨.L, .resync, none, [], 0, false, .sealed (some 231) none⟩ =
      .ok tr) ∧
    left 231 = some (none, false, false, some 0) ∧ left 230 = some (some 217600000, true, false, some 2) :=
  ⟨fun _ => ⟨rfl, rfl, rfl⟩, someOk (by decide +kernel), by decide +kernel, by decide +kernel⟩

/-- A Port L batch off its revision, closing in MAIN. -/
def offRevision : Batch := { sealed [replace5] (some 1) with base := some 16 }

theorem witness_RefusedCommitLeavesTheMirror : slotOf 5 = some 5 ∧
    (closing [insert6] none).live 5 = some (closingLive [insert6] none) ∧
    (closingLive [insert6] none).batch = some (sealed [insert6] none) ∧ (closingLive [insert6] none).completion = none ∧
    (∃ e, validate .r25 params5 (closingLive [insert6] none) (some 217664761) (sealed [insert6] none) = .error e) ∧
    (∃ d, validate .r25 params5 { live5 inMain with batch := some offRevision } (some 217640000) offRevision =
      .error ⟨.revisionGap, d, 0⟩) :=
  ⟨rfl, rfl, rfl, rfl, someError (by decide +kernel), _, rfl⟩

/-- The batch of `closingLive`, its checks of R97 passed, an entry of it that fails, a trial over the quota, trials that
break and keep the protected set, held and not, and the whole-batch refusals. -/
theorem witness_RefusedCommitLeavesTheMirror_checks :
    let l := closingLive [] none
    let b := fun es => sealed es none
    let trial := fun es => List.foldlM (applyEdit .r25) (⟨l.events, 0, 0⟩ : Trial) (b es).entries
    (¬((b []).port ≠ .L ∧ l.custody.custodian ≠ some (b []).port) ∧ (b []).overrun = false ∧ l.mirrorRev ≠ 4294967295 ∧
      (b []).base = some l.mirrorRev ∧ ¬(b []).declared.getD 0 < l.sourceRev) ∧
    ((trial [replace5]).toOption.isSome = true ∧
      ((trial [replace5]).bind fun t => applyEdit .r25 t (.delete 6)).toOption.isNone = true) ∧
    (trial []).toOption.map (fun t => decide (4 < t.events.length)) = some true ∧
    (∃ id, brokenBy l 1500 (some 217664761) (l.events.drop 1) = some id) ∧
    brokenBy l 1500 (some 217664761) l.events = none ∧
    (l.hold = none ∧ (held5 1).hold = some ⟨4, 1⟩ ∧ ∃ e, (held5 1).events = [] ++ e :: list5.drop 4 ∧ e.id = 4) ∧
    (brokenBy (held5 1) 1500 none (held5 1).events = none ∧
      brokenBy (held5 1) 1500 none (list5.drop 4) = some 4) := by
  refine ⟨by decide +kernel, by decide +kernel, by decide +kernel, ⟨1, by decide +kernel⟩, by decide +kernel,
    ⟨rfl, rfl, _, rfl, rfl⟩, by decide +kernel, by decide +kernel⟩

theorem witness_ReadyCueSwitchesToItsTarget : slotOf 5 = some 5 ∧
    (due .ready 1).live 5 = some (live5 { inTaking .ready 1 with switchDue := true }) ∧
    (inTaking .ready 1).state = .taking ∧ (inTaking .ready 1).takeover = some (takeover1 .ready 1) ∧
    (takeover1 .ready 1).cue.state = .ready ∧ (due .ready 1).asRun.nextSeq = some 1 ∧ 1 < Config.lastSequence ∧
    (with5 (inTaking .ready 1)).live 5 = some (live5 (inTaking .ready 1)) ∧ (inTaking .ready 1).switchDue = false :=
  ⟨rfl, rfl, rfl, rfl, rfl, rfl, by decide, rfl, rfl⟩

/-- A swap, whose old segment aired frames; one that aired none, and none open. -/
theorem witness_ReadyCueSwitchesToItsTarget_segments :
    (atFrame 217640025 (one swapDue)).live 5 = some swapDue ∧ isDrOutput swapDue.custody.output = true ∧
    (∃ k, swapDue.custody.takeover = some k ∧ k.cue.state = .ready ∧ swapDue.custody.output ≠ drOutput k.target ∧
      k.cue.switchFrame = 217640025 ∧
      ∃ c, cursorAt swapDue.events swapDue.timeline k.cue.switchFrame = .event c ∧ c.id = 1) ∧
    (atFrame 217640025 (one swapDue)).asRun.nextSeq = some 1 ∧
    airedEntries 217640025 swapDue.segment = [.aired 1 217640000 20000 25 .drA] ∧
    airedEntries 217640000 swapDue.segment = [] ∧ airedEntries 217640025 none = [] ∧ 1 + 2 ≤ 281474976710655 :=
  ⟨rfl, rfl, ⟨_, rfl, rfl, by decide, rfl, _, rfl, rfl⟩, rfl, by decide, by decide, rfl, by decide⟩

theorem witness_UnreadyCueIsMissed : slotOf 5 = some 5 ∧
    (∀ st n, (due st n).live 5 = some (live5 { inTaking st n with switchDue := true })) ∧
    (∀ st n, (inTaking st n).takeover = some (takeover1 st n)) ∧ (takeover1 .issued 1).cue.state ≠ .ready ∧
    (takeover1 .computing 3).cue.state ≠ .ready ∧ 3 ≤ (takeover1 .computing 3).attempt ∧ (takeover1 .issued 2).attempt < 3 ∧
    (due .issued 2).present (drPort (takeover1 .issued 2).firstChoice) = true ∧
    (State.present { due .issued 2 with portA := resetPort 115200 } (drPort (takeover1 .issued 2).firstChoice) = false ∧
      (takeover1 .issued 2).prevState ≠ .dr ∧
      State.present { due .issued 2 with portA := resetPort 115200 } (drPort (otherDr .A)) = true) ∧
    State.present { due .issued 2 with portA := resetPort 115200, portB := resetPort 115200 } (drPort (otherDr .A)) = false ∧
    ((inTaking .issued 1).output = .main ∧ (takeover1 .issued 1).prevOutput = .main ∧ (inTaking .issued 1).m = true) ∧
    (due .issued 1).asRun.nextSeq = some 1 ∧ swapping.output ≠ .main :=
  ⟨rfl, fun _ _ => rfl, fun _ _ => rfl, by decide, by decide, by decide, by decide, rfl, ⟨rfl, by decide, rfl⟩, rfl,
    ⟨rfl, rfl, rfl⟩, rfl, by decide⟩

theorem witness_ReturnSwitchesToMain : slotOf 5 = some 5 ∧
    (returning true).live 5 = some { live5 { inReturning with switchDue := true } with
      segment := some ⟨1, 217640050, 20050, .drA⟩, latestSeq := 4002 } ∧
    inReturning.state = .returning ∧ inReturning.ret.isSome = true ∧ isDrOutput inReturning.output = true ∧
    (returning true).asRun.nextSeq = some 4005 ∧ (returning false).live 5 = some { live5 inReturning with
      segment := some ⟨1, 217640050, 20050, .drA⟩, latestSeq := 4002 } ∧
    airedEntries 217650050 (some ⟨1, 217640050, 20050, .drA⟩) = [.aired 1 217640050 20050 10000 .drA] ∧
    4005 + 2 ≤ 281474976710655 := ⟨rfl, rfl, rfl, rfl, rfl, rfl, rfl, by decide, by decide⟩

/-! ### Lines, ports, the house and the Channel Table -/

theorem witness_BadFrameIsAnsweredAndRecorded : hears (house.port .B).receive = true ∧
    hears (State.port { house with portB := { here with receive := .inFrame [0] } } .B).receive = true := ⟨rfl, rfl⟩

theorem witness_LinesResumeHunting :
    hears (State.port { house with portB := { here with receive := .discarding } } .B).receive = false ∧
    hears (State.port { house with portB := { here with receive := .inBreak } } .B).receive = false ∧
    requestOf (.take hB .misfit) = some (hB, 14) := ⟨rfl, rfl, rfl⟩

theorem witness_PortResetActsOnThePortAlone : (house.port .A).receive ≠ .inBreak ∧ hears (busyA.port .A).receive = true ∧
    busyA.present .A = true ∧ (with5 (inTaking .ready 1)).live 5 = some (live5 (inTaking .ready 1)) ∧
    (closing [replace5] (some 1)).live 5 = some (closingLive [replace5] (some 1)) := by
  refine ⟨by decide +kernel, rfl, rfl, rfl, rfl⟩

/-- An entry for slot 5, and one for no channel. -/
def reported : List PresenceEntry := [⟨1205, some true, 231⟩, ⟨1, some false, 0⟩]

theorem witness_PresenceReportsTheMainSite : Open (with5 inMain) .L ∧ reported.length ≤ 32 ∧
    (∀ e ∈ reported, e.healthy.isSome = true) ∧ (with5 inMain).slotOfService 1205 = some 5 ∧
    (with5 inMain).slotOfService 1 = none ∧ Ready (with5 inMain) .L ∧
    32 < (List.replicate 33 (⟨1205, some true, 231⟩ : PresenceEntry)).length ∧
    (∃ e ∈ [(⟨1205, none, 231⟩ : PresenceEntry)], e.healthy = none) ∧ Ready (with5 inMain) (drPort .B) :=
  ⟨⟨rfl, rfl⟩, by decide, by decide, by decide +kernel, by decide +kernel, ready_one _ _, by decide, by decide,
    ready_one _ _⟩

/-- Entries of slot 5 that set its behind-since frame, keep it and clear it: main revision above and at the source
revision. -/
theorem witness_PresenceReportsTheMainSite_behind :
    let s : State := with5 { inMain with behind := some 217639000 }
    let behind := fun (es : List PresenceEntry) (s : State) =>
      of5 (fun l => (l.custody.behind, l.custody.l)) (after (.presence hL (.fields es)) s)
    Open s .L ∧ s.live 5 = some (live5 { inMain with behind := some 217639000 }) ∧ s.slotOfService 1205 = some 5 ∧
    (live5 inMain).sourceRev = 230 ∧ behind [⟨1205, some true, 231⟩] (with5 inMain) = some (some 217640000, false) ∧
    behind [⟨1205, some true, 231⟩] s = some (some 217639000, true) ∧
    behind [⟨1205, some true, 230⟩] s = some (none, false) ∧
    behind [⟨1205, some true, 230⟩, ⟨1205, some true, 231⟩] s = some (some 217640000, false) ∧
    behind [⟨1205, some true, 231⟩] { s with reference := ⟨.unset, 0, none, none⟩ } = some (none, false) :=
  ⟨⟨rfl, rfl⟩, rfl, by decide +kernel, rfl, by decide +kernel, by decide +kernel, by decide +kernel, by decide +kernel,
    by decide +kernel⟩

theorem witness_SetTimeBecomesPending : Ready house hA.port ∧ hA.port ≠ .L := ⟨ready_house _, by decide⟩

/-- A new rate, the freeze option on, and two parameters at the ends of their ranges. -/
def newHouse : HouseFields :=
  ⟨false, .give (some .r5994), .give 5, .keep, .keep, .give 16777215, .give (some true)⟩

theorem witness_ConfigureHouseSetsTheParameters : Ready house hA.port ∧ hA.port ≠ .L ∧
    houseMalformed newHouse house.house = false ∧
    (∃ i, ((with5 inMain).live i).isSome = true) ∧ (∀ i, house.live i = none) ∧ house.reference.pendingSet = none ∧
    Ready (setting house) hA.port ∧ (setting house).reference.pendingSet.isSome = true ∧
    (∀ i, (setting house).live i = none) ∧ ∃ r, newHouse.rate = .give (some r) ∧ r ≠ (setting house).house.rate :=
  ⟨ready_house _, by decide, by decide, ⟨5, rfl⟩, by decide +kernel, rfl, ⟨⟨rfl, rfl⟩, rfl⟩, rfl,
    by decide +kernel, .r5994, rfl, by decide⟩

/-- CONFIGURE CHANNEL of slot 5 under service ID 1205, in service or out of it. -/
def configure5 (enter : Bool) : ChannelFields := { keepAll with inService := some enter, serviceId := .give 1205 }

theorem witness_ConfigureChannelHasFourForms : Ready house hA.port ∧
    house.checkConfigureChannel hA (configure5 false) = .ok (5, params5, false) ∧
    house.checkConfigureChannel hA (configure5 true) = .ok (5, params5, true) ∧ house.live 5 = none ∧
    (with5 inMain).checkConfigureChannel hA (configure5 false) = .ok (5, params5, false) ∧
    (with5 inMain).live 5 = some (live5 inMain) ∧ (live5 inMain).segment = none ∧
    (with5 inMain).checkConfigureChannel hA { keepAll with quota := .give 16 } = .ok (5, { params5 with quota := 16 }, true) ∧
    ({ params5 with quota := 16 } : ChannelParams).guard = ((with5 inMain).params 5).guard :=
  ⟨ready_house _, ok_of (by decide +kernel), ok_of (by decide +kernel), by decide +kernel, ok_of (by decide +kernel), rfl, rfl,
    ok_of (by decide +kernel), rfl⟩

/-- A set of each refusal of R184: out of range, in flight, active, unrelated, held ID, sum and length; and a changed
guard and lag limit in MAIN. -/
theorem witness_ConfigureChannelHasFourForms_refusals : slotOf keepAll.channel = some 5 ∧ house.storeReady = true ∧
    channelMalformed { keepAll with quota := .give 15 } params5 = true ∧ channelMalformed keepAll params5 = false ∧
    (closing [replace5] none).live 5 = some (closingLive [replace5] none) ∧ (closingLive [replace5] none).inFlight = true ∧
    (with5 (inDr .A)).live 5 = some (live5 (inDr .A)) ∧ (inDr .A).state ≠ .main ∧
    paramsRelated { params5 with guard := 200 } = false ∧ paramsRelated params5 = true ∧
    ((fullPool.live 0).isSome = true ∧ (fullPool.params 0).serviceId = some 1101 ∧ fullPool.live 8 = none) ∧
    fullPool.quotaSum + 16 = 8208 ∧
    (with5 inMain).checkConfigureChannel hA { keepAll with guard := .give 1600, lagLimit := .give 900 } =
      .ok (5, { params5 with guard := 1600, lagLimit := 900 }, true) :=
  ⟨rfl, rfl, by decide, by decide, rfl, rfl, rfl, by decide, by decide, by decide,
    ⟨by decide +kernel, by decide +kernel, by decide +kernel⟩, by decide +kernel, ok_of (by decide +kernel)⟩

/-! ### Batches and reads -/

/-- Eight batches on slots 10 to 17, and slot 5 without one, under Port A. -/
def buffersOut : State :=
  (List.range 8).foldl (fun s n => onSlot (10 + n) s fun i => s.setChan i
    ⟨{ defaultParams with serviceId := some (1101 + n) }, some { live5 inMain with batch := some (opened 250) }⟩)
    (with5 (inDr .A))

theorem witness_OpenBatchTakesLeaseAndBuffer : Ready (with5 (inDr .A)) hA.port ∧ (with5 (inDr .A)).storeReady = true ∧
    Names (with5 (inDr .A)) hA.port 5 5 (live5 (inDr .A)) ∧ Names (with5 (inDr .A)) hL.port 1205 5 (live5 (inDr .A)) ∧
    (live5 (inDr .A)).inFlight = false ∧ (live5 (inDr .A)).batch = none ∧ hB.port ≠ .L ∧
    (inDr .A).custodian ≠ some hB.port ∧ (inDr .A).custodian = some hA.port ∧ 0 < (with5 (inDr .A)).freeBuffers ∧
    (Ready buffersOut hA.port ∧ Names buffersOut hA.port 5 5 (live5 (inDr .A)) ∧ buffersOut.freeBuffers = 0) ∧
    Names (one { live5 (inDr .A) with batch := some (opened 9) }) hA.port 5 5
      { live5 (inDr .A) with batch := some (opened 9) } ∧ Ready (with5 (inDr .A)) hB.port ∧
    (Ready (closing [replace5] none) hA.port ∧ (closing [replace5] none).storeReady = true ∧
      Names (closing [replace5] none) hA.port 5 5 (closingLive [replace5] none) ∧
      (closingLive [replace5] none).inFlight = true) :=
  ⟨ready_one _ _, rfl, names_one _, names_one_L _, rfl, rfl, by decide, by decide, by decide, by decide +kernel,
    ⟨⟨⟨rfl, rfl⟩, rfl⟩, rfl, by decide +kernel⟩, names_one _, ready_one _ _, ⟨⟨rfl, rfl⟩, rfl⟩, rfl, rfl, rfl⟩

/-- Slot 5 with an OPEN batch of Port L that holds 64 entries. -/
def fullBatch : Live := { live5 (inDr .A) with batch := some { opened 9 with entries := List.replicate 64 replace5 } }

theorem witness_AddEntriesHoldsTheNewest : Ready (one fullBatch) hL.port ∧ (one fullBatch).storeReady = true ∧
    Names (one fullBatch) hL.port 1205 5 fullBatch ∧ (fullBatch.openBatchOf hL.port).isSome = true ∧
    1 ≤ [insert6].length ∧ (List.replicate 16 insert6).length ≤ 16 :=
  ⟨ready_one _ _, rfl, names_one_L _, by decide +kernel, by decide, by decide⟩

theorem witness_BatchesAreClosedOrAborted : Ready (one fullBatch) hA.port ∧ Names (one fullBatch) hA.port 5 5 fullBatch ∧
    fullBatch.openBatchOf hA.port = none ∧ fullBatch.holder ≠ some hA.port ∧
    Names (one fullBatch) hL.port 1205 5 fullBatch ∧ (fullBatch.openBatchOf hL.port).isSome = true :=
  ⟨ready_one _ _, names_one _, rfl, by decide +kernel, names_one_L _, by decide +kernel⟩

/-- Slot 5 in MAIN, Port A's read position at an event of it. -/
def reading (at_ : Option Nat) : State := { with5 inMain with portA := { here with readPos := some ⟨5, at_⟩ } }

theorem witness_ReadsReturnTheListInOrder : Ready (reading (some 2)) hA.port ∧ (live5 inMain).inFlight = false ∧
    TimelineLaw (reading (some 2)) ∧ (live5 inMain).events = [] ++ list5 ∧
    (live5 inMain).events = list5.take 2 ++ list5.drop 2 ∧ Names (with5 inMain) hA.port 5 5 (live5 inMain) ∧
    (∃ e rest, list5.drop 2 = e :: rest ∧ ∀ x ∈ list5.take 2, x.id ≠ e.id) ∧
    (∃ x, x ∈ (list5.take 2).getLast? ∧ (∀ y ∈ (list5.take 2).dropLast, y.id ≠ x.id) ∧
      ((reading (some 2)).port hA.port).readPos = some ⟨5, some x.id⟩) ∧
    ((reading none).port hA.port).readPos = some ⟨5, none⟩ ∧ (reading none).live 5 = some (live5 inMain) ∧
    (∃ e, ((list5.drop 2).take (min 1 16))[0]? = some e) :=
  ⟨⟨⟨rfl, rfl⟩, rfl⟩, rfl, everyChannel_of (l := live5 inMain) rfl rfl, rfl, rfl, names_one _,
    ⟨_, _, rfl, by decide⟩, ⟨_, rfl, by decide, rfl⟩, rfl, rfl, _, rfl⟩

theorem witness_CursorAndChannelReadsChangeNothing : Ready (with5 inMain) hA.port ∧ (with5 inMain).storeReady = true ∧
    Names (with5 inMain) hA.port 5 5 (live5 inMain) ∧ (with5 inMain).reference.refState ≠ .unset ∧
    toFrame .r25 ⟨65535, ⟨23, 59, 59, 24⟩⟩ = some (maxH .r25, false) ∧ toFrame .r2997 ⟨0, ⟨0, 1, 0, 0⟩⟩ = some (1800, true) ∧
    (hA.port ≠ .L ∧ slotOf 31 = some 31) ∧ (hL.port = .L ∧ (with5 inMain).slotOfService 1205 = some 5) ∧
    Names { with5 inMain with reference := ⟨.unset, 0, none, none⟩ } hA.port 5 5 (live5 inMain) ∧
    (live5 inMain).completion = none ∧
    ((one (completing .resolved)).live 5 = some (completing .resolved) ∧ (completing .resolved).completion.isSome = true) ∧
    (with5 inMain).live 31 = none ∧ (with5 inMain).live 5 = some (live5 inMain) ∧
    ((with5 (inTaking .issued 1)).live 5 = some (live5 (inTaking .issued 1)) ∧ (inTaking .issued 1).state = .taking) ∧
    ((with5 inReturning).live 5 = some (live5 inReturning) ∧ inReturning.state = .returning) :=
  ⟨ready_one _ _, rfl, names_one _, by decide +kernel, by decide, by decide, ⟨by decide, rfl⟩, ⟨rfl, by decide +kernel⟩, rfl,
    rfl, ⟨rfl, rfl⟩, rfl, rfl, ⟨rfl, rfl⟩, rfl, rfl⟩

theorem witness_MatchCueAndFaultReadsChangeNothing : Ready house hL.port ∧
    patternMalformed { anyPattern with state := .is .safe, custodian := .is none, held := .is true } = false ∧
    Ready (with5 (inTaking .computing 1)) hA.port ∧ hA.port ≠ .L ∧
    (∀ st, Names (with5 (inTaking st 1)) hA.port 5 5 (live5 (inTaking st 1))) ∧
    (∀ st, (inTaking st 1).takeover = some (takeover1 st 1)) ∧ drPort (takeover1 .ready 1).target = hA.port ∧
    (takeover1 .computing 1).cue.state = .computing ∧ (takeover1 .ready 1).cue.state ≠ .computing ∧
    (takeover1 .ready 1).cue.body.isSome = true :=
  ⟨ready_house _, by decide, ready_one _ _, by decide, fun _ => names_one _, fun _ => rfl, rfl, rfl, by decide, rfl⟩

/-! ### Custody, holds and handback -/

theorem witness_TakeStartsATakeover : hA.port = drPort .A ∧ (∀ c, Ready (with5 c) hA.port) ∧
    (∀ c, Names (with5 c) hA.port 5 5 (live5 c)) ∧ (with5 inMain).reference.refState ≠ .unset ∧
    State.reference { with5 inMain with reference := ⟨.unset, 0, none, none⟩ } = ⟨.unset, 0, none, none⟩ ∧
    (inTaking .issued 1).state = .taking ∧ inReturning.state = .returning ∧
    ((inDr .A).state = .dr ∧ (inDr .A).custodian = some hA.port) ∧
    ((inDr .B).state = .dr ∧ (inDr .B).custodian ≠ some hA.port) ∧ inMain.state = .main ∧
    (live5 inMain).inFlight = false ∧ (closingLive [replace5] none).inFlight = true :=
  ⟨rfl, fun _ => ready_one _ _, fun _ => names_one _, by decide +kernel, rfl, rfl, rfl, ⟨rfl, rfl⟩, ⟨rfl, by decide⟩, rfl,
    rfl, rfl⟩

theorem witness_CancelTakeReturnsToThePreviousState : Ready (with5 (inTaking .ready 1)) hB.port ∧ hB.port ≠ .L ∧
    Names (with5 (inTaking .ready 1)) .A 5 5 (live5 (inTaking .ready 1)) ∧ (inTaking .ready 1).state = .taking ∧
    (inTaking .ready 1).takeover = some (takeover1 .ready 1) ∧ inMain.state ≠ .taking ∧
    (with5 (inTaking .ready 1)).asRun.nextSeq = some 1 :=
  ⟨ready_one _ _, by decide, names_one _, rfl, rfl, by decide, rfl⟩

theorem witness_CueReadyReadiesTheCue : Ready (with5 (inTaking .issued 1)) hA.port ∧ hA.port ≠ .L ∧
    (∀ st, Names (with5 (inTaking st 1)) hA.port 5 5 (live5 (inTaking st 1))) ∧
    (∀ st, (inTaking st 1).state = .taking ∧ (inTaking st 1).takeover = some (takeover1 st 1)) ∧
    drPort (takeover1 .issued 1).target = hA.port ∧ 2 ≠ (takeover1 .issued 1).cue.number ∧
    1 = (takeover1 .issued 1).cue.number ∧ (takeover1 .computing 1).cue.state = .computing ∧
    (takeover1 .issued 1).cue.state ≠ .computing ∧
    (∀ j m x, j ≠ 5 → (with5 (inTaking .issued 1)).live j = some m → m.custody.takeover = some x →
      drPort x.target = hA.port → x.cue.state = .ready) := by
  refine ⟨ready_one _ _, by decide, fun _ => names_one _, fun _ => ⟨rfl, rfl⟩, rfl, by decide, rfl, rfl, by decide,
    fun j m x hj hm _ _ => ?_⟩
  rw [with5, live_one] at hm
  simp [hj] at hm

/-- A channel in MAIN whose A changes, and one in DR. -/
theorem witness_ArmCombinesTheArmSet : Ready (with5 inMain) hA.port ∧ hA.port ≠ .L ∧
    of5 (fun l => (l.custody.a, l.custody.lastEval.map (·.index))) (after (.arm hA (.fields ⟨some .add, [5]⟩)) (with5 inMain)) =
      some (true, some 1) ∧
    lastReply .A (after (.arm hA (.fields ⟨some .toggle, [5]⟩)) (with5 (inDr .A))) = some (.ok, .armed [5] [] [(5, none)]) :=
  ⟨ready_one _ _, by decide, by decide +kernel, by decide +kernel⟩

/-- Policy index 9, TAKE_NOW, and index 10, NOTIFY, in MAIN. -/
def lost (a l : Bool) : Custody := { inMain with m := true, a := a, l := l }

theorem witness_EvaluationActsByThePolicyTable :
    (∀ c, (with5 c).live 5 = some (live5 c)) ∧ (inDr .A).state ≠ .main ∧ (inDr .A).state ≠ .safe ∧ inMain.state = .main ∧
    params5.policy.getD inMain.index .none = .none ∧ params5.policy.getD (lost true false).index .none = .takeNow ∧
    params5.policy.getD (lost false false).index .none = .takeAtJunction ∧
    params5.policy.getD (lost false true).index .none = .notify ∧ (with5 inMain).reference.refState ≠ .unset ∧
    (with5 inMain).present (drPort params5.preferred) = true ∧
    (absentA.present (drPort params5.preferred) = false ∧ absentA.present (drPort (otherDr params5.preferred)) = true) ∧
    (State.present { absentA with portB := resetPort 115200 } .A = false ∧
      State.present { absentA with portB := resetPort 115200 } .B = false) ∧
    State.live { with5 (lost true false) with reference := ⟨.unset, 0, none, none⟩ } 5 = some (live5 (lost true false)) :=
  ⟨fun _ => rfl, by decide, by decide, rfl, by decide, by decide, by decide, by decide, by decide +kernel, rfl, ⟨rfl, rfl⟩,
    ⟨rfl, rfl⟩, rfl⟩

theorem witness_HoldHoldsTheLiveEvent : Ready (one onAir4) hA.port ∧ hA.port ≠ .L ∧ Names (one onAir4) hA.port 5 5 onAir4 ∧
    onAir4.custody.custodian = some hA.port ∧ onAir4.custody.state = .dr ∧ onAir4.hold = none ∧
    (∃ c, onAir4.followed = some (.event c) ∧ c.content = .live 12) ∧
    Names (one (held5 1)) hA.port 5 5 (held5 1) ∧ (held5 1).hold.isSome = true ∧
    ∀ c src, (live5 (inDr .A)).followed = some (.event c) → c.content ≠ .live src :=
  ⟨ready_one _ _, by decide, names_one _, rfl, rfl, rfl, ⟨_, rfl, rfl⟩, names_one _, rfl, fun c src h => by
    cases h; exact fun e => by cases e⟩

theorem witness_ReleaseHoldEndsTheHold : Ready (one (held5 9)) hA.port ∧ hA.port ≠ .L ∧
    Names (one (held5 9)) hA.port 5 5 (held5 9) ∧ (held5 9).custody.custodian = some hA.port ∧
    (held5 9).custody.state ≠ .taking ∧ toFrame .r25 ⟨100, ⟨19, 33, 20, 0⟩⟩ = some (217760000, false) ∧
    (held5 9).hold = some ⟨4, 9⟩ ∧ Names (one onAir4) hA.port 5 5 onAir4 ∧ onAir4.hold = none :=
  ⟨ready_one _ _, by decide, names_one _, rfl, by decide, by decide, rfl, names_one _, rfl⟩

/-- Slot 5 as the worked handback finds it. -/
def handed : Live := { live5 (inDr .A) with segment := some ⟨1, 217640050, 20050, .drA⟩, latestSeq := 4002 }

/-- The first and the last frame of the window, and a mark that stands exactly at the latest number. -/
theorem witness_ReturnIsAcceptedOnAgreement : Ready (beforeReturn 4002) hL.port ∧
    Names (beforeReturn 4002) hL.port 1205 5 handed ∧ handed.custody.state = .dr ∧ handed.hold = none ∧
    handed.inFlight = false ∧ toFrame .r25 ⟨100, ⟨18, 20, 2, 0⟩⟩ = some (217650050, false) ∧
    217650025 + params5.cueLead ≤ 217650050 ∧ 217650050 < 217648551 + params5.guard ∧ handed.latestSeq ≤ 4002 ∧
    ∃ cur, cursorAt handed.events handed.timeline 217650050 = .event cur ∧ cur.id = 1 ∧ cur.offset = 30050 :=
  ⟨⟨⟨rfl, rfl⟩, rfl⟩, names_one_L _, rfl, rfl, rfl, by decide, by decide, by decide, by decide, _, rfl, rfl, rfl⟩

theorem witness_ReturnRefusalsComeInOrder : Ready (beforeReturn 4001) hL.port ∧
    Names (beforeReturn 4001) hL.port 1205 5 handed ∧ inMain.state ≠ .dr ∧ (held5 1).custody.state = .dr ∧
    (held5 1).hold.isSome = true ∧ (closingLive [replace5] none).custody.state = .dr ∧
    (closingLive [replace5] none).inFlight = true ∧ toFrame .r25 ⟨100, ⟨18, 20, 2, 25⟩⟩ = none ∧
    217650050 < 217650026 + params5.cueLead ∧ 217648550 + params5.guard ≤ 217650050 ∧ 4001 < handed.latestSeq ∧
    handed.latestSeq ≤ 4002 ∧
    ∀ e, cursorAt handed.events handed.timeline 217650050 = .event e → e.id ≠ 1 ∨ e.offset ≠ 30040 :=
  ⟨⟨⟨rfl, rfl⟩, rfl⟩, names_one_L _, by decide, rfl, rfl, rfl, rfl, by decide, by decide, by decide, by decide, by decide,
    fun e h => by cases h; exact .inr (by decide)⟩

theorem witness_CancelReturnKeepsTheDrCustodian : Ready (with5 inReturning) hA.port ∧ Ready (with5 inReturning) hB.port ∧
    Names (with5 inReturning) hA.port 5 5 (live5 inReturning) ∧ inReturning.custodian = some hA.port ∧
    inReturning.custodian ≠ some hB.port ∧ inReturning.state = .returning ∧ inReturning.ret.isSome = true ∧
    (inDr .A).state ≠ .returning ∧ (with5 inReturning).asRun.nextSeq = some 1 :=
  ⟨ready_one _ _, ready_one _ _, names_one _, rfl, by decide, rfl, rfl, by decide, rfl⟩

/-! ### The as-run log, status and faults -/

theorem witness_ReadAsRunReadsAboveTheMark : Ready (reader 4003) hB.port ∧ LogLaw (reader 4003) ∧ 1 ≤ 1 ∧ 1 ≤ [31].length ∧
    [31].length ≤ 32 ∧ (List.replicate 32 31).length ≤ 32 ∧ (∀ n ∈ [31], n ≤ 31) ∧ (hL.port = .L ∧ 0 ∉ [1205]) ∧
    (Ready (reader 4003) hL.port ∧ 0 ∈ [0]) ∧ ([] : List Nat).length = 0 ∧ 32 < (List.replicate 33 31).length ∧
    (hB.port ≠ .L ∧ ∃ n ∈ [32], 31 < n) :=
  ⟨⟨⟨rfl, rfl⟩, rfl⟩, witness_StepsKeepTheLogInSequence.1, by decide, by decide, by decide, by decide, by decide,
    ⟨rfl, by decide⟩, ⟨⟨⟨rfl, rfl⟩, rfl⟩, by decide⟩, rfl, by decide, by decide, by decide⟩

theorem witness_MarkIsClampedToTheNewest : Ready (reader 4003) hB.port ∧ (reader 4003).asRun.newest = 4009 :=
  ⟨⟨⟨rfl, rfl⟩, rfl⟩, rfl⟩

theorem witness_ReadStatusClearsEventReasons : Ready house.raiseFault hL.port ∧ house.raiseFault.portL.reasons.fault = true :=
  ⟨⟨⟨rfl, rfl⟩, rfl⟩, rfl⟩

theorem witness_ReportsFlagAndCapture : house.capture = none ∧ (house.reportChannel 5 .leaseExpired none .none).capture.isSome =
      true ∧ (with5 inMain).flagged ⟨.leaseExpired, some 5, none, none, .none⟩ = false ∧
    ((with5 inMain).reportChannel 5 .leaseExpired none .none).flagged ⟨.leaseExpired, some 5, none, none, .none⟩ = true := by
  decide +kernel

theorem witness_ClearFaultsClearsTheNamed : Ready (closing [replace5] none) hA.port ∧ hA.port ≠ .L ∧
    [31, 5].length ≤ 32 ∧ (∀ n ∈ [31, 5], n ≤ 31) ∧
    ([31, 5] = [31] ++ 5 :: [] ∧ (closing [replace5] none).inFlightAt 5 = true ∧
      ∀ m ∈ [31], (closing [replace5] none).inFlightAt m = false) ∧
    ∀ n ∈ [31, 5], (with5 inMain).inFlightAt n = false :=
  ⟨⟨⟨rfl, rfl⟩, rfl⟩, by decide, by decide, by decide, ⟨rfl, by decide +kernel, by decide +kernel⟩, by decide +kernel⟩

end Sys2Proof.Tests
end

section
/-! House Time, schedule times: a frame-of-day splits into ten-minute spans, minutes and labels, and its
timecode converts back to it (R10 to R16). -/

namespace Sys2Proof.Machine

/-! ## The labels of a day (R12 to R15) -/

theorem undropped_of_lt {r : HouseRate} {fod : Nat} (h : fod % tenMinutes r < rateK r) :
    undropped r fod = fod + 9 * rateK r * (fod / tenMinutes r) := by
  have drops : rateK r ≠ 0 := by omega
  simp [undropped, drops, h]

/-- At a non-drop rate too, where k is 0 and nothing is added. -/
theorem undropped_of_le {r : HouseRate} {fod : Nat} (h : rateK r ≤ fod % tenMinutes r) :
    undropped r fod = fod + (9 * rateK r * (fod / tenMinutes r) +
      rateK r * ((fod % tenMinutes r - rateK r) / droppedMinute r)) := by
  unfold undropped
  by_cases drops : rateK r = 0
  · simp [drops]
  · simp [drops, Nat.not_lt.2 h]

/-- The label count of a frame-of-day stands at label `e` of minute `q` of ten-minute span `d`.  Of every minute but the
first of a span the labels below k are dropped, and they are all that the count has added (R15). -/
theorem undropped_split (r : HouseRate) {fod : Nat} (h : fod < fpd r) :
    ∃ d q e, d < 144 ∧ q < 10 ∧ e < 60 * rateN r ∧ (q ≠ 0 → rateK r ≤ e) ∧
      undropped r fod = 600 * rateN r * d + 60 * rateN r * q + e ∧
      undropped r fod = fod + rateK r * (9 * d + q) := by
  have span : fod = tenMinutes r * (fod / tenMinutes r) + fod % tenMinutes r := (Nat.div_add_mod _ _).symm
  have spans : fod / tenMinutes r < 144 := by
    apply Nat.div_lt_of_lt_mul
    cases r <;> simp only [fpd, tenMinutes] at h ⊢ <;> omega
  have inSpan : fod % tenMinutes r < tenMinutes r := Nat.mod_lt _ (by cases r <;> decide)
  by_cases first : fod % tenMinutes r < rateK r
  · have count := undropped_of_lt first
    refine ⟨fod / tenMinutes r, 0, fod % tenMinutes r, spans, by decide, ?_⟩
    cases r <;> simp only [rateN, rateK, tenMinutes] at * <;> omega
  · have count := undropped_of_le (Nat.le_of_not_lt first)
    refine ⟨fod / tenMinutes r, (fod % tenMinutes r - rateK r) / droppedMinute r,
      (fod % tenMinutes r - rateK r) % droppedMinute r + rateK r, spans, ?_⟩
    cases r <;> simp only [rateN, rateK, tenMinutes, droppedMinute] at * <;> omega

/-- The timecode of label `e` of minute `q` of ten-minute span `d`, field by field. -/
theorem toTimecode_fields {r : HouseRate} {fod d q e : Nat} (he : e < 60 * rateN r)
    (hc : undropped r fod = 600 * rateN r * d + 60 * rateN r * q + e) :
    totalMinutes (toTimecode r fod) = 10 * d + q ∧ (toTimecode r fod).mm < 60 ∧ (toTimecode r fod).ss < 60 ∧
      (toTimecode r fod).ff < rateN r ∧ (toTimecode r fod).ss * rateN r + (toTimecode r fod).ff = e := by
  unfold totalMinutes toTimecode
  rw [hc]
  cases r <;> simp only [rateN] at * <;> omega

/-- A frame-of-day's timecode is in range, exists, and is that of the frame-of-day (R12 to R15). -/
theorem toTimecode_names {r : HouseRate} {fod : Nat} (h : fod < fpd r) :
    timecodeInRange r (toTimecode r fod) = true ∧ labelDropped r (toTimecode r fod) = false ∧
      frameOfDay r (toTimecode r fod) = fod := by
  obtain ⟨d, q, e, hd, hq, he, hk, split, added⟩ := undropped_split r h
  obtain ⟨minutes, hmm, hss, hff, label⟩ := toTimecode_fields he split
  have hours : (toTimecode r fod).hh < 24 := by unfold totalMinutes at minutes; omega
  refine ⟨by simp [timecodeInRange, hours, hmm, hss, hff], ?_, ?_⟩
  · by_cases first : q = 0
    · simp [labelDropped, minutes, first]
    · have := hk first
      by_cases zero : (toTimecode r fod).ss = 0
      · have : ¬ (toTimecode r fod).ff < rateK r := by rw [zero] at label; omega
        simp [labelDropped, this]
      · simp [labelDropped, zero]
  · unfold frameOfDay
    rw [minutes]
    unfold totalMinutes at minutes
    cases r <;> simp only [rateN, rateK] at * <;> omega

/-- Settles O18: the day splits off by division, and the frame-of-day that is left is named by its timecode. -/
theorem reportedLabelsNameTheirFrame : Obligations.ReportedLabelsNameTheirFrame := by
  unfold Obligations.ReportedLabelsNameTheirFrame
  intro r h hmax
  have positive : 0 < fpd r := by cases r <;> decide
  have day : h / fpd r ≤ Config.lastDay := by
    have inDays : h < fpd r * (Config.lastDay + 1) := by
      cases r <;> simp only [maxH, fpd, Config.lastDay] at * <;> omega
    exact Nat.le_of_lt_succ (Nat.div_lt_of_lt_mul inDays)
  obtain ⟨range, kept, named⟩ := toTimecode_names (Nat.mod_lt h positive)
  refine ⟨⟨h / fpd r, toTimecode r (h % fpd r)⟩, by rw [frameField, if_pos day], ?_⟩
  have frame : h / fpd r * fpd r + h % fpd r = h := by rw [Nat.mul_comm]; exact Nat.div_add_mod h _
  simp only [toFrame, range, day, decide_true, Bool.and_self, if_true, movedLabel, kept, Bool.false_eq_true, if_false,
    named, frame]

/-! ## The reference replaced -/

/-- The state with its Reference Counter replaced. -/
def State.setReference (s : State) (r : Reference) : State := { s with reference := r }

@[simp] theorem State.reference_setReference (s : State) (r : Reference) : (s.setReference r).reference = r := rfl

@[simp] theorem State.house_setReference (s : State) (r : Reference) : (s.setReference r).house = s.house := rfl

@[simp] theorem State.houseFlags_setReference (s : State) (r : Reference) :
    (s.setReference r).houseFlags = s.houseFlags := rfl

@[simp] theorem State.live_setReference (s : State) (r : Reference) (i : Slot) :
    (s.setReference r).live i = s.live i := rfl

@[simp] theorem State.port_setReference (s : State) (r : Reference) (p : Port) :
    (s.setReference r).port p = s.port p := by
  cases p <;> rfl

/-! ## SET TIME (R17) -/

theorem setReference_defer (s : State) (r : Reference) (hd : Head) (code : Nat) :
    (s.setReference r).defer hd code =
      (s.setReference r).setPort hd.port { s.port hd.port with inProgress := some ⟨code, hd.tag⟩ } := by
  rw [State.defer, State.port_setReference]

theorem exec_setTime (hd : Head) (b : Body SchedTime) (s : State) :
    exec (.setTime hd b) s = execSetTime hd b s := rfl

/-- The checks of SET TIME from an automation port, in the order of R17. -/
theorem checkSetTime_ofDr {s : State} {hd : Head} (hp : hd.port ≠ .L) (x : SchedTime) :
    s.checkSetTime hd x =
      if s.reference.pendingSet.isSome then .error (.busy, .empty)
      else match toFrame s.house.rate x with
        | none => .error (.badTime, .empty)
        | some c => if s.channelActive then .error (.channelActive, .empty) else .ok c := by
  unfold State.checkSetTime fromDr refuseIf
  rw [decide_eq_false hp]
  rfl

/-- The restart of presence does not bear on the checks of SET TIME. -/
theorem checkSetTime_restartPresence (s : State) (hd : Head) (p : Port) (x : SchedTime) :
    (s.restartPresence p).checkSetTime hd x = s.checkSetTime hd x := by
  simp [State.checkSetTime]

/-- Settles O37, by the checks of R17 in their order. -/
theorem setTimeBecomesPending : Obligations.SetTimeBecomesPending := by
  unfold Obligations.SetTimeBecomesPending
  intro hd x s ready hp
  rw [exec_setTime, execSetTime, takeRequest_of_ready ready, checkSetTime_restartPresence, checkSetTime_ofDr hp]
  by_cases pending : s.reference.pendingSet.isSome = true
  · simp [pending, answer_eq_reply]
  · cases convert : toFrame s.house.rate x with
    | none => simp [pending, answer_eq_reply]
    | some c =>
      by_cases active : s.channelActive = true
      · simp [pending, active, answer_eq_reply]
      · simp only [pending, active, Bool.false_eq_true, if_false, conclude_ok]
        rw [State.reference_restartPresence]
        exact congrArg Host.Outcome.next (setReference_defer (s.restartPresence hd.port) _ hd 3)

end Sys2Proof.Machine
end

section
/-! Acts on one channel, and what they keep of the part: the reference, the house, the parameters, the ports
but for reasons and presence timers, REF_LOST, and the revisions that the behind-since frame reads. -/

namespace Sys2Proof.Machine

/-! ## What the acts keep -/

/-- The revisions that the behind-since frame reads (R111). -/
def Live.revisions (l : Live) : Nat × Option Nat := (l.sourceRev, l.custody.mainRev)

/-- `t` is `s` after acts that leave alone the reference, the house, the parameters, REF_LOST, every channel's revisions
and every port but for its event reasons and its presence timer, which goes as `f` says. -/
structure Kept (f : Port → Option Nat → Option Nat) (s t : State) : Prop where
  reference : t.reference = s.reference
  house : t.house = s.house
  params : ∀ j, t.params j = s.params j
  ports : ∀ p, t.port p = { s.port p with reasons := (t.port p).reasons, presence := f p (s.port p).presence }
  refLost : FaultClass.refLost ∈ t.houseFlags ↔ FaultClass.refLost ∈ s.houseFlags
  revisions : ∀ j, (t.live j).map Live.revisions = (s.live j).map Live.revisions

/-- No presence timer moves. -/
def timersStand : Port → Option Nat → Option Nat := fun _ timer => timer

theorem Kept.refl (s : State) : Kept timersStand s s :=
  ⟨rfl, rfl, fun _ => rfl, fun _ => rfl, Iff.rfl, fun _ => rfl⟩

theorem Kept.trans {f g : Port → Option Nat → Option Nat} {s t u : State} (h : Kept f s t) (k : Kept g t u) :
    Kept (fun p timer => g p (f p timer)) s u where
  reference := k.reference.trans h.reference
  house := k.house.trans h.house
  params j := (k.params j).trans (h.params j)
  ports p := by rw [k.ports p, h.ports p]
  refLost := k.refLost.trans h.refLost
  revisions j := (k.revisions j).trans (h.revisions j)

theorem Kept.presence {f : Port → Option Nat → Option Nat} {s t : State} (h : Kept f s t) (p : Port) :
    (t.port p).presence = f p (s.port p).presence := by
  rw [h.ports p]

theorem Kept.sent {f : Port → Option Nat → Option Nat} {s t : State} (h : Kept f s t) (p : Port) :
    (t.port p).sent = (s.port p).sent := by
  rw [h.ports p]

theorem Kept.inProgress {f : Port → Option Nat → Option Nat} {s t : State} (h : Kept f s t) (p : Port) :
    (t.port p).inProgress = (s.port p).inProgress := by
  rw [h.ports p]

/-- A channel in service stays so, under its revisions. -/
theorem Kept.live {f : Port → Option Nat → Option Nat} {s t : State} (h : Kept f s t) {j : Slot} {l : Live}
    (hl : s.live j = some l) :
    ∃ l', t.live j = some l' ∧ l'.sourceRev = l.sourceRev ∧ l'.custody.mainRev = l.custody.mainRev := by
  have e := h.revisions j
  rw [hl] at e
  obtain ⟨l', hl', hr⟩ := Option.map_eq_some_iff.1 e
  exact ⟨l', hl', congrArg Prod.fst hr, congrArg Prod.snd hr⟩

/-- A port that is as it was but for its FAULT reason keeps all but reasons. -/
theorem reasons_of_faultRaised {u v : PortUnit}
    (h : v = u ∨ v = { u with reasons := { u.reasons with fault := true } }) : v = { u with reasons := v.reasons } := by
  rcases h with rfl | rfl <;> rfl

/-! ## Acts on one channel -/

/-- `t` is `s` after acts on the channel of slot `j` that move no presence timer. -/
structure SlotAct (j : Slot) (s t : State) : Prop extends Kept timersStand s t where
  others : ∀ k, k ≠ j → t.live k = s.live k

theorem SlotAct.refl (j : Slot) (s : State) : SlotAct j s s := ⟨Kept.refl s, fun _ _ => rfl⟩

theorem SlotAct.trans {j : Slot} {s t u : State} (h : SlotAct j s t) (k : SlotAct j t u) : SlotAct j s u :=
  ⟨h.toKept.trans k.toKept, fun i hi => (k.others i hi).trans (h.others i hi)⟩

theorem SlotAct.onLive {j : Slot} {s : State} {f : Live → State} (h : ∀ l, s.live j = some l → SlotAct j s (f l)) :
    SlotAct j s (onLive j s f) :=
  onLive_induct (P := SlotAct j s) (fun _ => SlotAct.refl j s) h

theorem SlotAct.setLive {j : Slot} {s : State} {l l' : Live} (hl : s.live j = some l) (hr : l'.revisions = l.revisions) :
    SlotAct j s (s.setLive j l') where
  reference := rfl
  house := rfl
  params := by simp
  ports p := by rw [State.port_setLive]; rfl
  refLost := Iff.rfl
  revisions k := by
    rw [State.live_setLive]
    split
    · rename_i e; subst e; simp [hl, hr]
    · rfl
  others k hk := State.live_setLive_ne s l' hk

theorem slotAct_setCustody {j : Slot} {s : State} {l : Live} (hl : s.live j = some l) {c : Custody}
    (hr : c.mainRev = l.custody.mainRev) : SlotAct j s (s.setCustody j c) := by
  rw [State.setCustody, onLive_of_some hl]
  exact SlotAct.setLive hl (by simp [Live.revisions, hr])

/-- An act that changes event reasons alone. -/
theorem slotAct_raise (j : Slot) (s : State) (p : Port) (f : EventReasons → EventReasons) : SlotAct j s (s.raise p f) where
  reference := by simp
  house := by simp
  params := by simp
  ports q := by
    rw [State.raise, State.port_setPort]
    split
    · rename_i e; subst e; rfl
    · rfl
  refLost := by simp
  revisions k := by simp
  others k _ := by simp

theorem SlotAct.raised {j : Slot} {s t : State} (h : SlotAct j s t) : SlotAct j s t.raiseCustodyChanged :=
  ((h.trans (slotAct_raise j t _ _)).trans (slotAct_raise j _ _ _)).trans (slotAct_raise j _ _ _)

theorem slotAct_raisePolicyNotice (j : Slot) (s : State) : SlotAct j s s.raisePolicyNotice :=
  (slotAct_raise j s _ _).trans (slotAct_raise j _ _ _)

/-! ## Reports -/

theorem mem_faultClasses (c : FaultClass) : c ∈ faultClasses := by cases c <;> decide

/-- A class is in a set that `c` was added to, if it is `c` or was there (R195). -/
theorem mem_addFlag (c d : FaultClass) (fs : List FaultClass) : d ∈ addFlag c fs ↔ d = c ∨ d ∈ fs := by
  simp [addFlag, mem_faultClasses]

/-- A report adds its class to the house flag set where it names no channel, and to that set nothing else (R195). -/
theorem houseFlags_report (s : State) (r : FaultReport) :
    (s.report r).houseFlags = if r.slot = none then addFlag r.cls s.houseFlags else s.houseFlags := by
  have flags : (s.flagReport r).houseFlags = if r.slot = none then addFlag r.cls s.houseFlags else s.houseFlags := by
    unfold State.flagReport
    cases hr : r.slot with
    | none => simp
    | some i => exact onLive_induct (P := fun t => t.houseFlags = _) (fun _ => by simp) (fun _ _ => by simp)
  unfold State.report
  dsimp only
  split
  · rw [State.houseFlags_raiseFault]; exact flags
  · exact flags

theorem revisions_reportedFlags (r : FaultReport) (j : Slot) (l : Live) :
    (reportedFlags r j l).revisions = l.revisions := by
  unfold reportedFlags
  split <;> rfl

theorem port_report (s : State) (r : FaultReport) (p : Port) :
    (s.report r).port p = { s.port p with reasons := ((s.report r).port p).reasons } := by
  obtain ⟨-, -, -, -, -, -, ports⟩ := report_rest s r
  exact reasons_of_faultRaised (ports p)

/-- A report of another class than REF_LOST, in the flag set of the channel or of the house. -/
theorem slotAct_report {j : Slot} (s : State) {r : FaultReport} (hc : r.cls ≠ .refLost)
    (hj : r.slot = none ∨ r.slot = some j) : SlotAct j s (s.report r) where
  reference := by simp
  house := by simp
  params := by simp
  ports p := port_report s r p
  refLost := by
    rw [houseFlags_report]
    split
    · simp [mem_addFlag, hc.symm]
    · rfl
  revisions k := by
    rw [live_report, Option.map_map]
    congr 1
    funext l
    exact revisions_reportedFlags r k l
  others k hk := by
    have unnamed : r.slot ≠ some k := by
      rcases hj with e | e <;> rw [e]
      · simp
      · simpa using fun e => hk e.symm
    rw [live_report, show reportedFlags r k = id from funext fun l => if_neg unnamed, Option.map_id, id]

theorem SlotAct.reported {j : Slot} {s t : State} (h : SlotAct j s t) {c : FaultClass} (hc : c ≠ .refLost)
    (p : Option Port) (d : FaultDetail) : SlotAct j s (t.reportChannel j c p d) :=
  h.trans (slotAct_report t hc (.inr rfl))

/-! ## The log (R163 to R172) -/

/-- Acts on the log that leave REF_LOST alone. -/
theorem LogActs.slotAct {j : Slot} {s t : State} (h : LogActs j s t)
    (hf : FaultClass.refLost ∈ t.houseFlags ↔ FaultClass.refLost ∈ s.houseFlags) : SlotAct j s t where
  reference := h.system.1
  house := h.system.2.1
  params := h.params
  ports p := reasons_of_faultRaised (h.ports p)
  refLost := hf
  revisions k := by
    by_cases e : k = j
    · subst e
      cases hl : s.live k with
      | none => rw [h.idle hl]
      | some l => obtain ⟨g, n, e⟩ := h.channel l hl; rw [e]; rfl
    · rw [h.others k e]
  others := h.others

theorem slotAct_writeEntry (s : State) (j : Slot) (f : Nat) (b : EntryBody) : SlotAct j s (s.writeEntry j f b) := by
  refine (logActs_writeEntry s j f b).slotAct ?_
  unfold State.writeEntry
  split
  · rfl
  · dsimp only
    generalize hs : ({ s with asRun := _ } : State) = s1
    have latest : ∀ f : Live → Live, (onLive j s1 fun l => s1.setLive j (f l)).houseFlags = s.houseFlags := fun f =>
      onLive_induct (P := fun t => t.houseFlags = s.houseFlags) (fun _ => by rw [← hs]) (fun _ _ => by rw [← hs]; rfl)
    split
    · rw [houseFlags_report]
      simp [mem_addFlag, latest]
    · rw [latest]

theorem slotAct_setSegment (s : State) (j : Slot) (g : Option Segment) : SlotAct j s (s.setSegment j g) := by
  refine (logActs_setSegment s j g).slotAct ?_
  exact onLive_induct (P := fun t => _ ∈ t.houseFlags ↔ _) (fun _ => Iff.rfl) (fun _ _ => Iff.rfl)

theorem slotAct_closeSegment (s : State) (j : Slot) (f : Nat) : SlotAct j s (s.closeSegment j f) := by
  refine SlotAct.onLive fun l _ => ?_
  cases l.segment with
  | none => exact SlotAct.refl j s
  | some g =>
    dsimp only
    split
    · exact (slotAct_setSegment s j none).trans (slotAct_writeEntry _ j f _)
    · exact slotAct_setSegment s j none

theorem slotAct_endNotice (s : State) (j : Slot) (id f : Nat) : SlotAct j s (s.endNotice j id f) := by
  unfold State.endNotice
  split
  · exact slotAct_closeSegment s j f
  · exact SlotAct.refl j s

theorem slotAct_startNotice (s : State) (j : Slot) (id f o : Nat) (out : Output) :
    SlotAct j s (s.startNotice j id f o out) := by
  unfold State.startNotice
  split
  · exact SlotAct.refl j s
  · exact (slotAct_closeSegment s j f).trans (slotAct_setSegment _ j _)

theorem SlotAct.switched {j : Slot} {s t : State} (h : SlotAct j s t) (a b : Output) (r : SwitchReason)
    (cue : Option Nat) (f : Nat) (c : Cursor) : SlotAct j s (t.switchRecord j a b r cue f c) := by
  have closed : SlotAct j s (if isDrOutput a && decide (a ≠ b) then t.closeSegment j f else t) := by
    split
    · exact h.trans (slotAct_closeSegment t j f)
    · exact h
  have recorded := closed.trans (slotAct_writeEntry _ j f (.switch a b r cue))
  unfold State.switchRecord
  dsimp only
  split
  · cases c with
    | event e => exact recorded.trans (slotAct_setSegment _ j _)
    | _ => exact recorded
  · exact recorded

/-! ## Custody: evaluation and takeovers -/

theorem slotAct_enterTaking (s : State) (j : Slot) (d : DrPort) (o : Origin) (m : TakeMode) :
    SlotAct j s (s.enterTaking j d o m) :=
  SlotAct.onLive fun _ hl =>
    .raised (.setLive hl (by rfl))

theorem slotAct_carryOut (s : State) (j : Slot) (a : PolicyAction) : SlotAct j s (s.carryOut j a).1 := by
  rcases carryOut_cases s j a with e | ⟨o, e, -⟩ | ⟨d, m, e, -⟩ <;> rw [e]
  · exact SlotAct.refl j s
  · exact slotAct_raisePolicyNotice j s
  · exact slotAct_enterTaking s j d .policy m

/-- An evaluation in MAIN or SAFE: the action carried out, and the record of it (R117). -/
theorem evaluate_of_rests {s : State} {j : Slot} {l : Live} (hl : s.live j = some l)
    (rests : l.custody.state = .main ∨ l.custody.state = .safe) :
    (s.evaluate j).1 =
      let a := (s.params j).policy.getD l.custody.index .none
      onLive j (s.carryOut j a).1 fun l1 => (s.carryOut j a).1.setCustody j
        { l1.custody with lastEval := some ⟨s.houseFrame, l.custody.index, a, (s.carryOut j a).2⟩ } := by
  unfold State.evaluate
  rw [hl]
  rcases rests with e | e <;> simp only [e]

theorem slotAct_evaluate (s : State) (j : Slot) : SlotAct j s (s.evaluate j).1 := by
  cases hl : s.live j with
  | none =>
    rw [State.evaluate, hl]
    exact SlotAct.refl j s
  | some l =>
    by_cases rests : l.custody.state = .main ∨ l.custody.state = .safe
    · rw [evaluate_of_rests hl rests]
      exact (slotAct_carryOut s j _).trans (SlotAct.onLive fun _ h1 => slotAct_setCustody h1 (by rfl))
    · rw [evaluate_of_other hl (fun e => rests (.inl e)) fun e => rests (.inr e)]
      exact SlotAct.refl j s

theorem slotAct_changeConditions (s : State) (j : Slot) {f : Live → Custody → Custody}
    (hf : ∀ l c, (f l c).mainRev = c.mainRev) : SlotAct j s (s.changeConditions j f).1 := by
  unfold State.changeConditions
  cases hl : s.live j with
  | none => exact SlotAct.refl j s
  | some l =>
    have changed : SlotAct j s (s.setCustody j (f l l.custody)) := slotAct_setCustody hl (hf l _)
    dsimp only
    split
    · exact changed
    · exact changed.trans (slotAct_evaluate _ j)

/-- The recomputation of L touches nothing but L (R112). -/
theorem recomputeL_eq (link : Bool) (h limit : Nat) (c : Custody) :
    c.recomputeL link h limit = { c with l := if link then lagging h limit c.behind else c.l } := by
  cases link <;> rfl

theorem slotAct_linkConditions (j : Slot) (s : State) : SlotAct j s (s.linkConditions j) :=
  slotAct_changeConditions s j fun _ c => by rw [recomputeL_eq]; rfl

theorem slotAct_custodyArrival (s : State) (h : Nat) (timeSet : Bool) (j : Slot) :
    SlotAct j s (s.custodyArrival h timeSet j) :=
  slotAct_changeConditions s j fun _ c => by
    dsimp only
    rw [recomputeL_eq]
    split <;> rfl

/-! ## Custody: switch frames and misses -/

theorem slotAct_recordMiss (s : State) (j : Slot) (p : Option Port) (c : MissCause) : SlotAct j s (s.recordMiss j p c) := by
  refine SlotAct.onLive fun l _ => ?_
  cases l.custody.takeover with
  | none => exact SlotAct.refl j s
  | some t =>
    have missed : SlotAct j s (s.reportChannel j .cueMissed p (.miss t.cue.number t.attempt c)) :=
      .reported (.refl j s) (by decide) p _
    dsimp only
    split
    · refine .raised (.reported (.switched ?_ _ _ _ _ _ _) (by decide) _ _)
      exact missed.trans (SlotAct.onLive fun l1 h1 => slotAct_setCustody h1 (by rfl))
    · exact missed

theorem slotAct_endTakeover (s : State) (j : Slot) : SlotAct j s (s.endTakeover j) := by
  refine SlotAct.onLive fun l hl => ?_
  cases l.custody.takeover with
  | none => exact SlotAct.refl j s
  | some t => exact .raised (slotAct_setCustody hl (by rfl))

theorem slotAct_miss (j : Slot) (left : Nat) (s : State) (p : Option Port) (c : MissCause) :
    SlotAct j s (State.miss j left s p c) := by
  induction left generalizing s p c with
  | zero => exact (slotAct_recordMiss s j p c).trans (slotAct_endTakeover _ j)
  | succ left ih =>
    have missed := slotAct_recordMiss s j p c
    unfold State.miss
    dsimp only
    cases hl : (s.recordMiss j p c).live j with
    | none => exact missed
    | some l =>
      dsimp only
      cases l.custody.takeover with
      | none => exact missed
      | some t =>
        dsimp only
        split
        · exact missed.trans (SlotAct.setLive hl (by rfl))
        · refine SlotAct.trans (missed.trans ?_) (ih _ _ _)
          exact SlotAct.setLive hl (by rfl)

theorem slotAct_missCue (s : State) (j : Slot) (t : Takeover) (c : MissCause) : SlotAct j s (s.missCue j t c) :=
  slotAct_miss j _ s _ c

theorem slotAct_switchTo {s : State} {j : Slot} {l : Live} (hl : s.live j = some l) (t : Takeover) :
    SlotAct j s (s.switchTo j l t) :=
  .raised (.switched (slotAct_setCustody hl (by rfl)) _ _ _ _ _ _)

theorem slotAct_takeSwitchFrame (s : State) (j : Slot) : SlotAct j s (s.takeSwitchFrame j) := by
  refine SlotAct.onLive fun l hl => ?_
  split
  · split
    · split
      · exact slotAct_switchTo hl _
      · exact slotAct_missCue s j _ _
      · exact slotAct_missCue s j _ _
    · exact SlotAct.refl j s
  · exact SlotAct.refl j s

theorem slotAct_takeReturnFrame (s : State) (j : Slot) : SlotAct j s (s.takeReturnFrame j) := by
  refine SlotAct.onLive fun l hl => ?_
  split
  · split
    · exact .raised (.switched (slotAct_setCustody hl (by rfl)) _ _ _ _ _ _)
    · exact SlotAct.refl j s
  · exact SlotAct.refl j s

theorem slotAct_takeDue (j : Slot) (s : State) : SlotAct j s (s.takeDue j) :=
  (slotAct_takeSwitchFrame s j).trans (slotAct_takeReturnFrame _ j)

theorem slotAct_markDue (s : State) (h : Nat) (j : Slot) : SlotAct j s (s.markDue h j) := by
  refine SlotAct.onLive fun l hl => ?_
  split
  · split
    · exact slotAct_setCustody hl (by rfl)
    · exact SlotAct.refl j s
  · exact SlotAct.refl j s

/-! ## Custody: the loss of a port -/

theorem slotAct_linkWithdraws (j : Slot) (s : State) : SlotAct j s (s.linkWithdraws j) := by
  unfold State.linkWithdraws
  split
  · refine SlotAct.onLive fun l hl => ?_
    cases l.custody.ret with
    | none => exact SlotAct.refl j s
    | some r =>
      exact .raised (.switched (.reported (slotAct_setCustody hl (by rfl)) (by decide) _ _) _ _ _ _ _ _)
  · exact SlotAct.refl j s

theorem slotAct_targetLost {s : State} {j : Slot} {l : Live} (hl : s.live j = some l) (t : Takeover) :
    SlotAct j s (s.targetLost j l t) := by
  unfold State.targetLost
  split
  · exact SlotAct.setLive hl (by rfl)
  · exact slotAct_missCue s j t _

theorem slotAct_drLost (d : DrPort) (j : Slot) (s : State) : SlotAct j s (s.drLost d j) := by
  refine SlotAct.onLive fun l hl => ?_
  have absent : SlotAct j s (s.reportChannel j .custodianAbsent (some (drPort d)) .none) :=
    .reported (.refl j s) (by decide) _ _
  dsimp only
  cases l.custody.state with
  | dr =>
    dsimp only
    split
    · split
      · exact absent.trans (slotAct_enterTaking _ j _ _ _)
      · exact absent.switched _ _ _ _ _ _
    · exact SlotAct.refl j s
  | taking =>
    dsimp only
    cases l.custody.takeover with
    | none => exact SlotAct.refl j s
    | some t =>
      dsimp only
      split
      · exact slotAct_targetLost hl t
      · split
        · exact absent
        · exact SlotAct.refl j s
  | returning =>
    dsimp only
    split
    · exact absent
    · exact SlotAct.refl j s
  | _ => exact SlotAct.refl j s

/-! ## The resolver and the batch engine -/

theorem mainRev_timelineChanged (l : Live) : l.timelineChanged.custody.mainRev = l.custody.mainRev := by
  obtain ⟨n, t, hc, -⟩ := timelineChanged_custody l
  rw [hc]

theorem revisions_reResolve (l : Live) (p : ChannelParams) (h : Option Nat) :
    (l.reResolve p h).revisions = l.revisions := by
  obtain ⟨-, -, -, -, -, -, -, -, hs, -⟩ := reResolve_rest l p h
  have hm : (l.reResolve p h).custody.mainRev = l.custody.mainRev := by
    unfold Live.reResolve
    dsimp only
    rw [mainRev_timelineChanged]
    rfl
  rw [Live.revisions, hm, hs, Live.revisions]

theorem slotAct_holdExpiry (s : State) (j : Slot) : SlotAct j s (s.holdExpiry j) := by
  refine SlotAct.onLive fun l hl => ?_
  cases hh : l.hold with
  | none => exact SlotAct.refl j s
  | some hr =>
    dsimp only
    split
    · refine .reported (.setLive hl ?_) (by decide) _ _
      rw [Live.release, hh]
      exact revisions_reResolve _ _ _
    · exact SlotAct.refl j s

theorem slotAct_leaseExpiry (s : State) (j : Slot) : SlotAct j s (s.leaseExpiry j) := by
  refine SlotAct.onLive fun l hl => ?_
  split
  · split
    · exact .reported (.setLive hl (by rfl)) (by decide) _ _
    · exact SlotAct.refl j s
  · exact SlotAct.refl j s

theorem slotAct_leaseArrival (j : Slot) (s : State) : SlotAct j s (s.leaseArrival j) := by
  refine SlotAct.onLive fun l hl => ?_
  split
  · split
    · exact SlotAct.setLive hl (by rfl)
    · exact SlotAct.refl j s
  · exact SlotAct.refl j s

end Sys2Proof.Machine
end

section
/-! A frame arrival as a whole: the passes over every slot, what was due before it, the Reference Counter's
part, and a pending time set (R3 to R8, R17, R18). -/

namespace Sys2Proof.Machine

/-! ## Passes over every slot -/

theorem Kept.andThen {f : Port → Option Nat → Option Nat} {s t u : State} (h : Kept f s t) (k : Kept timersStand t u) :
    Kept f s u :=
  h.trans k

theorem Kept.pass {f : Slot → State → State} (h : ∀ j s, SlotAct j s (f j s)) (s : State) :
    Kept timersStand s (forSlots f s) :=
  forSlots_induct (P := Kept timersStand s) (fun j t k => k.trans (h j t).toKept) (Kept.refl s)

/-- A pass over every slot at slot `i`: what the slots before it keep, its own act turns into what the slots after it
keep. -/
theorem forSlots_at {P Q : State → Prop} {f : Slot → State → State} (i : Slot)
    (before : ∀ j s, j ≠ i → P s → P (f j s)) (act : ∀ s, P s → Q (f i s))
    (after : ∀ j s, j ≠ i → Q s → Q (f j s)) {s : State} (h : P s) : Q (forSlots f s) := by
  have fold : ∀ {R : State → Prop} (is : List Slot), (∀ j ∈ is, ∀ s, R s → R (f j s)) → ∀ s, R s →
      R (is.foldl (fun s j => f j s) s) := by
    intro R is
    induction is with
    | nil => exact fun _ s hs => hs
    | cons j is ih => exact fun hk s hs => ih (fun k hm => hk k (by simp [hm])) _ (hk j (by simp) s hs)
  obtain ⟨pre, post, split⟩ := List.append_of_mem (List.mem_finRange i)
  have nodup : (pre ++ i :: post).Nodup := split ▸ List.nodup_finRange 32
  have inPre : ∀ j ∈ pre, j ≠ i := fun j hj e => (List.nodup_append.1 nodup).2.2 j hj i (by simp) e
  have inPost : ∀ j ∈ post, j ≠ i := fun j hj e =>
    (List.nodup_cons.1 (List.nodup_append.1 nodup).2.1).1 (e ▸ hj)
  rw [forSlots, slots, split, List.foldl_append, List.foldl_cons]
  exact fold post (fun j hj s => after j s (inPost j hj)) _
    (act _ (fold pre (fun j hj s => before j s (inPre j hj)) s h))

/-! ## Presence timers (R208, R209) -/

/-- A presence timer whose expiry is taken where it stands at 0. -/
def unexpired : Option Nat → Option Nat
  | some 0 => none
  | timer => timer

/-- A presence timer lowered by one arrival. -/
def stepTimer (timer : Option Nat) : Option Nat := timer.map (· - 1)

theorem Kept.congr {f g : Port → Option Nat → Option Nat} {s t : State} (h : Kept f s t)
    (e : ∀ p timer, f p timer = g p timer) : Kept g s t := by
  rwa [show g = f from funext fun p => funext fun timer => (e p timer).symm]

/-- The presence timer of one port moved. -/
theorem kept_setPresence (s : State) (p : Port) (f : Option Nat → Option Nat) :
    Kept (fun q timer => if q = p then f timer else timer) s
      (s.setPort p { s.port p with presence := f (s.port p).presence }) where
  reference := by simp
  house := by simp
  params := by simp
  ports q := by
    rw [State.port_setPort]
    by_cases e : q = p
    · subst e; simp
    · simp [e]
  refLost := by simp
  revisions j := by simp

theorem kept_presenceLost (s : State) (p : Port) : Kept timersStand s (s.presenceLost p) := by
  unfold State.presenceLost
  cases asDr p with
  | some d => exact Kept.pass (slotAct_drLost d) s
  | none =>
    refine Kept.andThen (Kept.andThen (Kept.pass slotAct_linkWithdraws s) ?_) (Kept.pass slotAct_linkConditions _)
    exact (slotAct_report (j := 0) _ (by simp) (.inl rfl)).toKept

theorem kept_expirePresence (s : State) (p : Port) :
    Kept (fun q timer => if q = p then unexpired timer else timer) s (s.expirePresence p) := by
  have moved := kept_setPresence s p unexpired
  unfold State.expirePresence
  split
  · rename_i due
    rw [due] at moved
    exact moved.andThen (kept_presenceLost _ p)
  · rename_i running
    have stands : unexpired (s.port p).presence = (s.port p).presence := by
      unfold unexpired
      split
      · rename_i e; exact absurd e running
      · rfl
    rwa [stands, State.setPort_port] at moved

/-- What was due before an arrival, taken: a presence timer at 0 has expired. -/
theorem kept_settleDue (s : State) : Kept (fun _ => unexpired) s s.settleDue := by
  have channels := ((Kept.pass (fun j s => slotAct_holdExpiry s j) s).andThen (Kept.pass slotAct_takeDue _)).andThen
    (Kept.pass (fun j s => slotAct_leaseExpiry s j) _)
  unfold State.settleDue
  dsimp only
  refine (((channels.trans (kept_expirePresence _ .L)).trans (kept_expirePresence _ .A)).trans
    (kept_expirePresence _ .B)).congr fun p timer => ?_
  cases p <;> rfl

/-! ## The blocks after the Reference Counter -/

theorem kept_custodyNotes (s : State) (a : Arrival) (first : List Nat) : Kept timersStand s (s.custodyNotes a first) := by
  have decided : ∀ (ns : List Nat) (t : State),
      Kept timersStand t (ns.foldl (fun s n => onSlot n s fun i => s.takeDue i) t) := by
    intro ns
    induction ns with
    | nil => exact Kept.refl
    | cons n ns ih =>
      intro t
      have one : Kept timersStand t (onSlot n t fun i => t.takeDue i) :=
        onSlot_induct (P := Kept timersStand t) (Kept.refl t) fun j => (slotAct_takeDue j t).toKept
      exact one.andThen (ih _)
  unfold State.custodyNotes
  cases a.h with
  | none => exact Kept.refl s
  | some h => exact (Kept.pass (fun j s => slotAct_markDue s h j) s).andThen (decided first _)

/-- Entries written for a channel at one frame, in order. -/
def State.writeEntries (s : State) (i : Slot) (frame : Nat) (bodies : List EntryBody) : State :=
  bodies.foldl (fun s b => s.writeEntry i frame b) s

theorem writeEntries_cons (s : State) (i : Slot) (frame : Nat) (b : EntryBody) (bodies : List EntryBody) :
    s.writeEntries i frame (b :: bodies) = (s.writeEntry i frame b).writeEntries i frame bodies := rfl

theorem writeEntries_append (s : State) (i : Slot) (frame : Nat) (as bs : List EntryBody) :
    s.writeEntries i frame (as ++ bs) = (s.writeEntries i frame as).writeEntries i frame bs :=
  List.foldl_append

theorem slotAct_writeEntries (s : State) (j : Slot) (frame : Nat) (bodies : List EntryBody) :
    SlotAct j s (s.writeEntries j frame bodies) := by
  induction bodies generalizing s with
  | nil => exact SlotAct.refl j s
  | cons b bodies ih => exact (slotAct_writeEntry s j frame b).trans (ih _)

/-- The end notice of an advancing arrival at `h`: for the event followed, where the cursor has left it (R67). -/
def State.afterEnd (s : State) (i : Slot) (followed : Option Cursor) (cur : Cursor) (h : Nat) : State :=
  match followed with
  | some (.event e) => if cur.onEvent e.id then s else s.endNotice i e.id h
  | _ => s

/-- The bodies of its skip notices' entries. -/
def Live.skippedEntries (l : Live) (h : Nat) : List EntryBody :=
  ((l.events.zip l.timeline).filter fun c => decide (c.2.state = .skipped ∧ c.2.start = some h)).map
    fun c => .skipped c.1.id

/-- Its start notice: for the event on air, where it was not the one followed. -/
def State.afterStart (s : State) (i : Slot) (followed : Option Cursor) (cur : Cursor) (h : Nat) (out : Output) : State :=
  match cur with
  | .event e => if (followed.any fun f => f.onEvent e.id) = true then s else s.startNotice i e.id h e.lateness out
  | _ => s

/-- The notices of an advancing arrival, in their order (R67). -/
theorem notices_eq (s : State) (i : Slot) (l : Live) (followed : Option Cursor) (cur : Cursor) (h : Nat) :
    s.notices i l followed cur h =
      ((s.afterEnd i followed cur h).writeEntries i h (l.skippedEntries h)).afterStart i followed cur h
        l.custody.output := by
  have skips : ∀ (cs : List (EventRec × Resolved)) (u : State),
      u.writeEntries i h (cs.map fun c => .skipped c.1.id) = cs.foldl (fun s c => s.skipNotice i c.1.id h) u :=
    fun cs u => by rw [State.writeEntries, List.foldl_map]; rfl
  unfold State.notices
  rw [Live.skippedEntries, skips]
  cases cur <;> rcases followed with _ | _ | _ <;> rfl

theorem slotAct_notices (s : State) (j : Slot) (l : Live) (followed : Option Cursor) (cur : Cursor) (h : Nat) :
    SlotAct j s (s.notices j l followed cur h) := by
  have ended : SlotAct j s (s.afterEnd j followed cur h) := by
    unfold State.afterEnd
    split
    · split
      · exact SlotAct.refl j s
      · exact slotAct_endNotice s j _ h
    · exact SlotAct.refl j s
  have started : ∀ u, SlotAct j u (u.afterStart j followed cur h l.custody.output) := by
    intro u
    unfold State.afterStart
    split
    · split
      · exact SlotAct.refl j u
      · exact slotAct_startNotice u j _ h _ _
    · exact SlotAct.refl j u
  rw [notices_eq]
  exact (ended.trans (slotAct_writeEntries _ j h _)).trans (started _)

theorem revisions_retire (l : Live) (p : ChannelParams) (h : Nat) : (l.retire p h).revisions = l.revisions := by
  unfold Live.retire
  dsimp only
  split
  · rfl
  · rw [revisions_reResolve]; rfl

/-- What the resolver makes of a channel on an arrival that carries `h`, its notices sent: retirement, unless a commit
is in flight, the protected set, the followed cursor and the hold timer (R66, R70, R72, R79). -/
def Live.resolverWork (l : Live) (p : ChannelParams) (h : Nat) (cur : Cursor) : Live :=
  Live.stepHold { (if l.inFlight then l else l.retire p h).redraw p (some h) with followed := some cur }

theorem resolverArrival_none {s : State} {i : Slot} {l : Live} (hl : s.live i = some l) (advancing : Bool) :
    s.resolverArrival none advancing i = s.setLive i l.stepHold := by
  rw [State.resolverArrival, onLive_of_some hl]

/-- The resolver's work on a channel in service: the notices, then the channel. -/
theorem resolverArrival_some {s : State} {i : Slot} {l : Live} (hl : s.live i = some l) (h : Nat) (advancing : Bool) :
    s.resolverArrival (some h) advancing i =
      let s1 := if advancing && isDrOutput l.custody.output then s.notices i l l.followed (l.cursor h) h else s
      onLive i s1 fun l1 => s1.setLive i (l1.resolverWork (s1.params i) h (l.cursor h)) := by
  rw [State.resolverArrival, onLive_of_some hl]
  rfl

theorem revisions_resolverWork (l : Live) (p : ChannelParams) (h : Nat) (cur : Cursor) :
    (l.resolverWork p h cur).revisions = l.revisions := by
  have kept : (if l.inFlight then l else l.retire p h).revisions = l.revisions := by
    split
    · rfl
    · exact revisions_retire l p h
  exact kept

theorem slotAct_resolverArrival (s : State) (h : Option Nat) (advancing : Bool) (j : Slot) :
    SlotAct j s (s.resolverArrival h advancing j) := by
  cases hl : s.live j with
  | none => rw [State.resolverArrival, onLive_of_none hl]; exact SlotAct.refl j s
  | some l =>
    cases h with
    | none => rw [resolverArrival_none hl]; exact SlotAct.setLive hl (by rfl)
    | some h =>
      rw [resolverArrival_some hl]
      refine SlotAct.trans (t := if advancing && isDrOutput l.custody.output then
        s.notices j l l.followed (l.cursor h) h else s) ?_ (SlotAct.onLive fun l1 h1 => ?_)
      · split
        · exact slotAct_notices s j l _ _ h
        · exact SlotAct.refl j s
      · exact SlotAct.setLive h1 (revisions_resolverWork l1 _ h _)

/-- The presence timers of the three ports lowered by an arrival. -/
def State.presencePass (s : State) : State := ((s.presenceArrival .L).presenceArrival .A).presenceArrival .B

/-- The delivery of an arrival that carries H, block after block. -/
theorem deliverArrival_of_some {s r : State} {moment h : Nat} {src : ArrivalSource} {timeSet advancing : Bool}
    (hr : s.settleDue.referenceArrival moment src = (r, ⟨some h, timeSet, advancing⟩)) (first : List Nat) :
    s.deliverArrival moment src first =
      (forSlots State.leaseArrival (forSlots (fun i s => s.custodyArrival h timeSet i)
        (forSlots (fun i s => s.resolverArrival (some h) advancing i)
          (r.custodyNotes ⟨some h, timeSet, advancing⟩ first)))).presencePass := by
  rw [State.deliverArrival, hr, State.presencePass]

/-- The delivery of an arrival without H: the Custody Controller takes no part. -/
theorem deliverArrival_of_none {s r : State} {moment : Nat} {src : ArrivalSource} {timeSet advancing : Bool}
    (hr : s.settleDue.referenceArrival moment src = (r, ⟨none, timeSet, advancing⟩)) (first : List Nat) :
    s.deliverArrival moment src first =
      (forSlots State.leaseArrival (forSlots (fun i s => s.resolverArrival none advancing i) r)).presencePass := by
  rw [State.deliverArrival, hr, State.presencePass, State.custodyNotes]

theorem kept_presencePass (s : State) : Kept (fun _ => stepTimer) s s.presencePass := by
  refine (((kept_setPresence s .L stepTimer).trans (kept_setPresence _ .A stepTimer)).trans
    (kept_setPresence _ .B stepTimer)).congr fun p timer => ?_
  cases p <;> rfl

/-- What the blocks after the Reference Counter keep. -/
theorem kept_deliverArrival (s : State) (moment : Nat) (src : ArrivalSource) (first : List Nat) :
    Kept (fun _ => stepTimer) (s.settleDue.referenceArrival moment src).1 (s.deliverArrival moment src first) := by
  obtain ⟨⟨r, h, timeSet, advancing⟩, hr⟩ : ∃ r, s.settleDue.referenceArrival moment src = r := ⟨_, rfl⟩
  rw [hr]
  have lower := fun (h : Option Nat) (t : State) =>
    Kept.pass (fun j s => slotAct_resolverArrival s h advancing j) t
  cases h with
  | none =>
    rw [deliverArrival_of_none hr]
    exact ((lower none r).andThen (Kept.pass slotAct_leaseArrival _)).trans (kept_presencePass _)
  | some h =>
    rw [deliverArrival_of_some hr]
    exact ((((kept_custodyNotes _ _ first).andThen (lower (some h) _)).andThen
      (Kept.pass (fun j s => slotAct_custodyArrival s h timeSet j) _)).andThen
      (Kept.pass slotAct_leaseArrival _)).trans (kept_presencePass _)

/-! ## The Reference Counter (R4 to R8) -/

/-- The record of REF_LOST leaves the log, the channels and the ports but for reasons. -/
theorem recordRefLost_rest (s : State) (before : RefState) :
    (s.recordRefLost before).reference = s.reference ∧ (s.recordRefLost before).house = s.house ∧
    (s.recordRefLost before).asRun = s.asRun ∧ (∀ j, (s.recordRefLost before).params j = s.params j) ∧
    (∀ j, (s.recordRefLost before).live j = s.live j) ∧
    ∀ p, (s.recordRefLost before).port p = { s.port p with reasons := ((s.recordRefLost before).port p).reasons } := by
  unfold State.recordRefLost
  split
  · refine ⟨by simp, by simp, by simp, by simp, fun j => ?_, fun p => port_report s _ p⟩
    rw [live_report]
    exact Option.map_id'
  · exact ⟨rfl, rfl, rfl, fun _ => rfl, fun _ => rfl, fun _ => rfl⟩

theorem live_recordRefLost (s : State) (before : RefState) (j : Slot) : (s.recordRefLost before).live j = s.live j := by
  obtain ⟨-, -, -, -, live, -⟩ := recordRefLost_rest s before
  exact live j

/-- REF_LOST is recorded exactly on entry to FLYWHEEL (R6). -/
theorem refLost_recordRefLost (s : State) (before : RefState) :
    FaultClass.refLost ∈ (s.recordRefLost before).houseFlags ↔
      FaultClass.refLost ∈ s.houseFlags ∨ (s.reference.refState = .flywheel ∧ before ≠ .flywheel) := by
  unfold State.recordRefLost
  split
  · rename_i entered
    simp [houseFlags_report, mem_addFlag, entered]
  · rename_i entered
    simp [entered]

theorem arrivalFrame_eq_nextH (s : State) : arrivalFrame s = nextH s.house.rate s.reference.h := rfl

theorem arrivalFrame_congr {s t : State} (hr : t.reference = s.reference) (hh : t.house = s.house) :
    arrivalFrame t = arrivalFrame s := by
  rw [arrivalFrame_eq_nextH, arrivalFrame_eq_nextH, hr, hh]

/-- The Reference Counter after an arrival without a time set that takes effect. -/
def advancedReference (s : State) (moment : Nat) (src : ArrivalSource) : Reference :=
  if s.reference.refState = .unset then { s.reference with last := some ⟨moment, src⟩, pendingSet := none }
  else ⟨sourceState src, arrivalFrame s, some ⟨moment, src⟩, none⟩

theorem advance_eq (s : State) (moment : Nat) (src : ArrivalSource) :
    { s.reference.advance s.house.rate moment src with pendingSet := none } = advancedReference s moment src := by
  unfold advancedReference Reference.advance
  cases hs : s.reference.refState <;> simp [arrivalFrame_eq_nextH, hs]

theorem advancedReference_congr {s t : State} (hr : t.reference = s.reference) (hh : t.house = s.house) (moment : Nat)
    (src : ArrivalSource) : advancedReference t moment src = advancedReference s moment src := by
  rw [advancedReference, advancedReference, arrivalFrame_congr hr hh, hr]

/-- What an arrival without a time set that takes effect carries (R3, R66). -/
def plainArrival (s : State) (moment : Nat) (src : ArrivalSource) : Arrival :=
  let h := (s.setReference (advancedReference s moment src)).houseFrame
  { h := h, timeSet := false, advancing := decide (h = some (s.reference.h + 1)) }

theorem referenceArrival_plain {s : State} (h : s.reference.pendingSet = none) (moment : Nat) (src : ArrivalSource) :
    s.referenceArrival moment src =
      ((s.setReference (advancedReference s moment src)).recordRefLost s.reference.refState,
        plainArrival s moment src) := by
  unfold State.referenceArrival plainArrival
  rw [← advance_eq, h]
  rfl

/-- The arrival of a pending time set while a channel is active: the answer is CHANNEL_ACTIVE (R18). -/
theorem referenceArrival_active {s : State} {ps : PendingSet} (h : s.reference.pendingSet = some ps)
    (ha : s.channelActive = true) (moment : Nat) (src : ArrivalSource) :
    s.referenceArrival moment src =
      (((s.setReference (advancedReference s moment src)).recordRefLost s.reference.refState).replyLater ps.port 3 ps.tag
        .channelActive .empty, plainArrival s moment src) := by
  unfold State.referenceArrival plainArrival
  rw [← advance_eq, h]
  simp only [ha, if_true]
  rfl

/-- The arrival on which a pending time set takes effect (R18). -/
theorem referenceArrival_applied {s : State} {ps : PendingSet} (h : s.reference.pendingSet = some ps)
    (ha : s.channelActive = false) (moment : Nat) (src : ArrivalSource) :
    s.referenceArrival moment src =
      (((s.setReference (Reference.applySet moment src ps.frame)).recordRefLost s.reference.refState).replyLater ps.port 3
        ps.tag (okOr ps.adjusted) (.timeSet (s.frame ps.frame) (sourceState src)),
        { h := some ps.frame, timeSet := true, advancing := false }) := by
  obtain ⟨hr, hh, -⟩ := recordRefLost_rest (s.setReference (Reference.applySet moment src ps.frame)) s.reference.refState
  have hf : ((s.setReference (Reference.applySet moment src ps.frame)).recordRefLost s.reference.refState).frame ps.frame =
      s.frame ps.frame := by rw [State.frame, hh]; rfl
  have hs : ((s.setReference (Reference.applySet moment src ps.frame)).recordRefLost s.reference.refState).reference.refState =
      sourceState src := by rw [hr]; rfl
  unfold State.referenceArrival
  rw [h]
  simp only [ha, Bool.false_eq_true, if_false]
  rw [← hf, ← hs]
  rfl

/-! ## Arrivals as commands (R5, R6) -/

theorem exec_housePulse (moment : Nat) (first : List Nat) (s : State) :
    exec (.housePulse moment first) s = execHousePulse moment first s := rfl

theorem exec_insertedArrival (moment : Nat) (first : List Nat) (s : State) :
    exec (.insertedArrival moment first) s = execInsertedArrival moment first s := rfl

theorem pulseCounts_iff (rate : HouseRate) (moment : Nat) (last : Option LastArrival) :
    pulseCounts rate moment last = true ↔ ∀ la, last = some la → nominalPeriod rate / 2 ≤ moment - la.moment := by
  cases last <;> simp [pulseCounts]

/-- An arrival that comes about is delivered. -/
theorem exec_of_isArrival {s : State} {moment : Nat} {first : List Nat} {src : ArrivalSource} {c : Instr}
    (h : IsArrival s moment first src c) : exec c s = .next (s.deliverArrival moment src first) := by
  rcases h with ⟨rfl, rfl, counts⟩ | ⟨rfl, rfl, due⟩
  · rw [exec_housePulse, execHousePulse, if_pos ((pulseCounts_iff _ _ _).2 counts)]
  · rw [exec_insertedArrival, execInsertedArrival, if_pos due]

/-- Before its deadline the timebase brings no arrival (R6). -/
theorem exec_insertedArrival_early {s : State} {moment : Nat} (first : List Nat)
    (h : moment < timebaseDeadline s.house.rate s.reference.last) : exec (.insertedArrival moment first) s = .next s := by
  rw [exec_insertedArrival, execInsertedArrival, if_neg (Nat.not_le.2 h)]

/-- A repeat pulse (R5). -/
theorem exec_housePulse_repeat {s : State} {moment : Nat} (first : List Nat) {la : LastArrival}
    (hl : s.reference.last = some la) (h : moment - la.moment < nominalPeriod s.house.rate / 2) :
    exec (.housePulse moment first) s = .next (match la.source with
      | .pulse => s
      | .timebase => { s with reference := { s.reference with
          refState := if s.reference.refState = .flywheel then .locked else s.reference.refState
          last := some ⟨moment, .pulse⟩ } }) := by
  have early : pulseCounts s.house.rate moment s.reference.last = false := by
    simp [pulseCounts, hl, h]
  rw [exec_housePulse, execHousePulse, early]
  obtain ⟨m, src⟩ := la
  cases src with
  | pulse => simp [Reference.repeatPulse, hl]
  | timebase =>
    simp only [Reference.repeatPulse, hl]
    cases hs : s.reference.refState <;> simp

/-! ## An arrival without a time set (R5, R6, R8, R208) -/

/-- What an arrival leaves the house: the parameters as they were, and the reference, REF_LOST and the presence timers
as the Reference Counter and the Port Units take it. -/
theorem deliverArrival_plain {s : State} (h : s.reference.pendingSet = none) (moment : Nat) (src : ArrivalSource)
    (first : List Nat) :
    (s.deliverArrival moment src first).house = s.house ∧
    (∀ p, ((s.deliverArrival moment src first).port p).presence = stepTimer (unexpired (s.port p).presence)) ∧
    (s.deliverArrival moment src first).reference = advancedReference s moment src ∧
    (FaultClass.refLost ∈ (s.deliverArrival moment src first).houseFlags ↔ FaultClass.refLost ∈ s.houseFlags ∨
      ((advancedReference s moment src).refState = .flywheel ∧ s.reference.refState ≠ .flywheel)) := by
  have settled := kept_settleDue s
  have delivered := kept_deliverArrival s moment src first
  rw [referenceArrival_plain (by rw [settled.reference]; exact h), advancedReference_congr settled.reference settled.house,
    settled.reference] at delivered
  obtain ⟨hr, hh, -, -, -, hp⟩ := recordRefLost_rest (s.settleDue.setReference (advancedReference s moment src))
    s.reference.refState
  refine ⟨?_, fun p => ?_, ?_, ?_⟩
  · rw [delivered.house, hh, State.house_setReference, settled.house]
  · rw [delivered.presence, hp, State.port_setReference, settled.presence]
  · rw [delivered.reference, hr, State.reference_setReference]
  · rw [delivered.refLost, refLost_recordRefLost, State.houseFlags_setReference, settled.refLost,
      State.reference_setReference]

theorem stepTimer_unexpired (timer : Option Nat) : stepTimer (unexpired timer) =
    match timer with
    | some (n + 1) => some n
    | _ => none := by
  rcases timer with _ | _ | n <;> rfl

/-- The reference that an arrival leaves where no time set was pending. -/
theorem advancedReference_plain {s : State} (h : s.reference.pendingSet = none) (moment : Nat) (src : ArrivalSource) :
    advancedReference s moment src =
      if s.reference.refState = .unset then { s.reference with last := some ⟨moment, src⟩ }
      else ⟨sourceState src, arrivalFrame s, some ⟨moment, src⟩, none⟩ := by
  unfold advancedReference
  rw [← h]

/-- The timebase enters FLYWHEEL from LOCKED alone. -/
theorem advancedReference_flywheel_iff (s : State) (moment : Nat) :
    (advancedReference s moment .timebase).refState = .flywheel ∧ s.reference.refState ≠ .flywheel ↔
      s.reference.refState = .locked := by
  unfold advancedReference
  cases hs : s.reference.refState <;> simp [sourceState, hs]

/-! ## An arrival with a time set (R17, R18, R111) -/

theorem port_replyLater (s : State) (p : Port) (code tag : Nat) (st : Status) (b : ReplyBody) :
    (s.replyLater p code tag st b).port p =
      { s.port p with inProgress := none, sent := (s.port p).sent ++ [⟨code, tag, st, s.attention p, b⟩] } := by
  simp [State.replyLater, State.reply]

/-- A time set decided: the requester's reply, and what else the Reference Counter has recorded. -/
theorem answered_timeSet (u : State) (before : RefState) (p : Port) (tag : Nat) (st : Status) (b : ReplyBody) {t : State}
    (h : Kept (fun _ => stepTimer) ((u.recordRefLost before).replyLater p 3 tag st b) t) :
    t.reference = u.reference ∧ (t.port p).inProgress = none ∧
    (∃ a, (t.port p).sent = (u.port p).sent ++ [⟨3, tag, st, a, b⟩]) ∧
    (FaultClass.refLost ∈ t.houseFlags ↔
      FaultClass.refLost ∈ u.houseFlags ∨ (t.reference.refState = .flywheel ∧ before ≠ .flywheel)) := by
  obtain ⟨hr, -, -, -, -, hp⟩ := recordRefLost_rest u before
  have reference : t.reference = u.reference := by rw [h.reference, State.reference_replyLater, hr]
  refine ⟨reference, ?_, ?_, ?_⟩
  · rw [h.inProgress, port_replyLater]
  · exact ⟨_, by rw [h.sent, port_replyLater, hp]⟩
  · rw [h.refLost, State.houseFlags_replyLater, refLost_recordRefLost, reference]

/-- The lease timer of a channel's OPEN batch lowered by one arrival (R89). -/
def Live.stepLease (l : Live) : Live :=
  { l with batch := l.batch.map fun b => { b with phase := match b.phase with
    | .opened n => .opened (n - 1)
    | .sealed d g => .sealed d g } }

theorem leaseArrival_eq {s : State} {i : Slot} {l : Live} (hl : s.live i = some l) :
    s.leaseArrival i = s.setLive i l.stepLease := by
  rw [State.leaseArrival, onLive_of_some hl]
  unfold Live.stepLease
  cases hb : l.batch with
  | none =>
    have same : ({ l with batch := none } : Live) = l := by rw [← hb]
    simp [same, State.setLive_of_live hl]
  | some b =>
    cases hp : b.phase with
    | opened n => simp [hp]
    | sealed d g =>
      have same : ({ l with batch := some { b with phase := .sealed d g } } : Live) = l := by rw [← hp, ← hb]
      simp [hp, same, State.setLive_of_live hl]

/-- The pass of the lease timers at one channel. -/
theorem live_leasePass {s : State} {i : Slot} {l : Live} (hl : s.live i = some l) :
    (forSlots State.leaseArrival s).live i = some l.stepLease :=
  forSlots_at (P := fun t => t.live i = some l) (Q := fun t => t.live i = some l.stepLease) i
    (fun j t hj ht => ((slotAct_leaseArrival j t).others i hj.symm).trans ht)
    (fun t ht => by rw [leaseArrival_eq ht, State.live_setLive_self])
    (fun j t hj ht => ((slotAct_leaseArrival j t).others i hj.symm).trans ht) hl

theorem live_presencePass (s : State) (i : Slot) : s.presencePass.live i = s.live i := by
  simp [State.presencePass]

/-- The behind-since frame that a time set at `h` starts afresh, from the revisions it reads (R111). -/
def freshBehind (h : Nat) (revisions : Nat × Option Nat) : Option Nat :=
  match revisions.2 with
  | some r => if revisions.1 < r then some h else none
  | none => none

/-- The behind-since frame on the arrival that carries a time set (R111). -/
theorem behind_custodyArrival {s : State} {i : Slot} {l : Live} (hl : s.live i = some l) (h : Nat) :
    ∃ l', (s.custodyArrival h true i).live i = some l' ∧ l'.custody.behind = freshBehind h l.revisions := by
  obtain ⟨l', hl', -, hc⟩ := changeConditions_channel hl
    (f := fun l c => Custody.recomputeL (s.present .L) h (s.params i).lagLimit (c.restartBehind h l.sourceRev))
    (by rw [recomputeL_eq]; rfl) (by rw [recomputeL_eq]; rfl)
  exact ⟨l', hl', by rw [hc, recomputeL_eq]; rfl⟩

/-- After the arrival on which a time set takes effect, the behind-since frame of every channel starts afresh (R111). -/
theorem behind_deliverArrival {s r : State} {i : Slot} {l : Live} {h moment : Nat} {src : ArrivalSource}
    (first : List Nat) (hl : s.live i = some l)
    (hr : s.settleDue.referenceArrival moment src = (r, { h := some h, timeSet := true, advancing := false }))
    (hk : (r.live i).map Live.revisions = (s.live i).map Live.revisions) :
    ∃ l', (s.deliverArrival moment src first).live i = some l' ∧ l'.custody.behind = freshBehind h l.revisions := by
  rw [deliverArrival_of_some hr]
  have resolved := (kept_custodyNotes r { h := some h, timeSet := true, advancing := false } first).andThen
    (Kept.pass (fun j s => slotAct_resolverArrival s (some h) false j) _)
  generalize forSlots _ (State.custodyNotes r _ first) = u at resolved ⊢
  have restarted : ∃ l', (forSlots (fun i s => s.custodyArrival h true i) u).live i = some l' ∧
      l'.custody.behind = freshBehind h l.revisions := by
    refine forSlots_at (P := fun v => (v.live i).map Live.revisions = some l.revisions)
      (Q := fun v => ∃ l', v.live i = some l' ∧ l'.custody.behind = freshBehind h l.revisions) i
      (fun j v hj hv => ?_) (fun v hv => ?_) (fun j v hj hv => ?_) ?_
    · rwa [(slotAct_custodyArrival v h true j).others i hj.symm]
    · obtain ⟨m, hm, hrev⟩ := Option.map_eq_some_iff.1 hv
      obtain ⟨l', hl', hb⟩ := behind_custodyArrival hm h
      exact ⟨l', hl', by rw [hb, hrev]⟩
    · rwa [(slotAct_custodyArrival v h true j).others i hj.symm]
    · rw [resolved.revisions, hk, hl, Option.map_some]
  obtain ⟨l', hl', hb⟩ := restarted
  exact ⟨l'.stepLease, by rw [live_presencePass, live_leasePass hl'], hb⟩

/-- Settles O23: what was due is settled, the Reference Counter decides the set, and the blocks after it leave its
decision, the reply and REF_LOST alone. -/
theorem pendingTimeSetIsDecidedOnTheArrival : Obligations.PendingTimeSetIsDecidedOnTheArrival := by
  unfold Obligations.PendingTimeSetIsDecidedOnTheArrival
  intro s moment first src c ps pending arrival now
  have settled := kept_settleDue s
  have delivered := kept_deliverArrival s moment src first
  have pending' : s.settleDue.reference.pendingSet = some ps := by rw [settled.reference, pending]
  have source : now = sourceState src := by cases src <;> rfl
  cases active : s.settleDue.channelActive with
  | true =>
    rw [referenceArrival_active pending' active] at delivered
    obtain ⟨reference, answered, ⟨a, sent⟩, refLost⟩ := answered_timeSet _ _ _ _ _ _ delivered
    refine ⟨_, a, exec_of_isArrival arrival, answered, ?_, fun e => absurd e (by simp), fun _ => ⟨?_, ?_⟩⟩
    · rw [refLost, State.houseFlags_setReference, settled.refLost, settled.reference]
    · rw [reference, State.reference_setReference, advancedReference_congr settled.reference settled.house, source]
      rfl
    · rw [sent, State.port_setReference, settled.sent]
  | false =>
    have decided := referenceArrival_applied pending' active moment src
    rw [decided] at delivered
    obtain ⟨reference, answered, ⟨a, sent⟩, refLost⟩ := answered_timeSet _ _ _ _ _ _ delivered
    refine ⟨_, a, exec_of_isArrival arrival, answered, ?_, fun _ => ⟨?_, ?_, fun i l hl => ?_⟩,
      fun e => absurd e (by simp)⟩
    · rw [refLost, State.houseFlags_setReference, settled.refLost, settled.reference]
    · rw [reference, State.reference_setReference, source]
      rfl
    · rw [sent, State.port_setReference, settled.sent, source, State.frame, settled.house]
      rfl
    · refine behind_deliverArrival first hl decided ?_
      rw [State.live_replyLater, live_recordRefLost, State.live_setReference, settled.revisions]

end Sys2Proof.Machine
end

section
/-! What one channel makes of a frame arrival, block after block (R66, R67, R70, R72, R79, R89, R112, R117,
R142, R158, R166 to R168). -/

namespace Sys2Proof.Machine

/-! ## Nothing due is left over (log entry 3) -/

theorem forSlots_of_fixed {f : Slot → State → State} {s : State} (h : ∀ j, f j s = s) : forSlots f s = s :=
  forSlots_induct (P := fun t => t = s) (fun j t e => by rw [e, h j]) rfl

theorem holdExpiry_of_running {s : State} {j : Slot}
    (h : ∀ l, s.live j = some l → ∀ hr, l.hold = some hr → hr.timer ≠ 0) : s.holdExpiry j = s := by
  refine onLive_induct (P := fun t => t = s) (fun _ => rfl) fun l hl => ?_
  cases hh : l.hold with
  | none => rfl
  | some hr => exact if_neg (h l hl hr hh)

theorem takeDue_of_undue {s : State} {j : Slot} (h : ∀ l, s.live j = some l → l.custody.switchDue = false) :
    s.takeDue j = s := by
  have switched : s.takeSwitchFrame j = s := by
    refine onLive_induct (P := fun t => t = s) (fun _ => rfl) fun l hl => ?_
    simp only [h l hl]
    split <;> rfl
  have returned : s.takeReturnFrame j = s := by
    refine onLive_induct (P := fun t => t = s) (fun _ => rfl) fun l hl => ?_
    simp only [h l hl]
    split <;> rfl
  rw [State.takeDue, switched, returned]

theorem leaseExpiry_of_running {s : State} {j : Slot}
    (h : ∀ l, s.live j = some l → ∀ b, l.batch = some b → b.phase ≠ .opened 0) : s.leaseExpiry j = s := by
  refine onLive_induct (P := fun t => t = s) (fun _ => rfl) fun l hl => ?_
  cases hb : l.batch with
  | none => rfl
  | some b =>
    dsimp only
    split
    · rename_i due; exact absurd due (h l hl b hb)
    · rfl

/-- Where nothing due is left over, an arrival has nothing to settle. -/
theorem settleDue_of_quiet {s : State} (h : Quiet s) : s.settleDue = s := by
  obtain ⟨timers, channels⟩ := h
  have holds : forSlots (fun j s => s.holdExpiry j) s = s :=
    forSlots_of_fixed fun j => holdExpiry_of_running fun l hl => (channels j l hl).2.1
  have switches : forSlots State.takeDue s = s :=
    forSlots_of_fixed fun j => takeDue_of_undue fun l hl => (channels j l hl).1
  have leases : forSlots (fun j s => s.leaseExpiry j) s = s :=
    forSlots_of_fixed fun j => leaseExpiry_of_running fun l hl => (channels j l hl).2.2
  have ports : ∀ p, s.expirePresence p = s := fun p => if_neg (timers p)
  rw [State.settleDue, holds, switches, leases, ports, ports, ports]

/-! ## The way of an arrival through the blocks -/

/-- The channel of slot `j`, where in service, is under no DR output. -/
def OffAir (s : State) (j : Slot) : Prop := ∀ m, s.live j = some m → isDrOutput m.custody.output = false

/-- No channel but that of slot `i` is under a DR output. -/
def OthersOffAir (i : Slot) (s : State) : Prop := ∀ j, j ≠ i → OffAir s j

/-- A block's act on the channel of slot `j` on an arrival: one under no DR output stays so, and the log with it. -/
structure ArrivalStep (j : Slot) (s t : State) : Prop extends SlotAct j s t where
  log : OffAir s j → t.asRun = s.asRun ∧ OffAir t j

/-- An act that leaves the log and the channel's output alone. -/
theorem SlotAct.arrivalStep {j : Slot} {s t : State} (h : SlotAct j s t) (ha : t.asRun = s.asRun)
    (ho : ∀ l, s.live j = some l → ∃ l', t.live j = some l' ∧ l'.custody.output = l.custody.output) :
    ArrivalStep j s t where
  toSlotAct := h
  log off := by
    refine ⟨ha, fun m hm => ?_⟩
    cases hl : s.live j with
    | none =>
      have := h.revisions j
      rw [hm, hl] at this
      cases this
    | some l =>
      obtain ⟨l', hl', e⟩ := ho l hl
      rw [hm] at hl'
      cases hl'
      rw [e]
      exact off l hl

/-- `u` stands on the way of an arrival that came upon `s`: the Reference Counter has left `r`, the channel of slot `i`
has come to `l`, and, where no other channel is under a DR output, the log to one that `A` holds of. -/
structure Stage (s : State) (r : Reference) (i : Slot) (l : Live) (A : AsRun → Prop) (u : State) : Prop where
  reference : u.reference = r
  house : u.house = s.house
  params : ∀ j, u.params j = s.params j
  present : u.present .L = s.present .L
  live : u.live i = some l
  log : OthersOffAir i s → OthersOffAir i u ∧ A u.asRun

/-- Acts on other channels do not bear on the stage that a channel has come to. -/
theorem Stage.other {s : State} {r : Reference} {i j : Slot} {l : Live} {A : AsRun → Prop} {u v : State}
    (h : Stage s r i l A u) (hj : j ≠ i) (k : ArrivalStep j u v) : Stage s r i l A v where
  reference := k.reference.trans h.reference
  house := k.house.trans h.house
  params n := (k.params n).trans (h.params n)
  present := by rw [State.present, k.presence]; exact h.present
  live := (k.others i hj.symm).trans h.live
  log off := by
    obtain ⟨quiet, log⟩ := h.log off
    obtain ⟨same, offAir⟩ := k.log (quiet j hj)
    refine ⟨fun n hn => ?_, by rwa [same]⟩
    by_cases e : n = j
    · rw [e]; exact offAir
    · intro m hm
      rw [k.others n e] at hm
      exact quiet n hn m hm

/-- The channel's own act moves it on. -/
theorem Stage.own {s : State} {r : Reference} {i : Slot} {l l' : Live} {A B : AsRun → Prop} {u v : State}
    (h : Stage s r i l A u) (k : SlotAct i u v) (hl : v.live i = some l') (hb : A u.asRun → B v.asRun) :
    Stage s r i l' B v where
  reference := k.reference.trans h.reference
  house := k.house.trans h.house
  params n := (k.params n).trans (h.params n)
  present := by rw [State.present, k.presence]; exact h.present
  live := hl
  log off := by
    obtain ⟨quiet, log⟩ := h.log off
    refine ⟨fun n hn m hm => ?_, hb log⟩
    rw [k.others n hn] at hm
    exact quiet n hn m hm

/-! ## Switch frames reached (R142, R158) -/

/-- The switch frame a channel waits for is reached by an arrival that carries `h`. -/
def Custody.reached (rate : HouseRate) (h : Nat) (c : Custody) : Bool := c.awaited.any (reaches rate h)

/-- The channel after the note of a switch frame reached. -/
def Live.marked (rate : HouseRate) (h : Nat) (l : Live) : Live :=
  { l with custody := { l.custody with switchDue := l.custody.switchDue || l.custody.reached rate h } }

theorem markDue_eq {s : State} {i : Slot} {l : Live} (hl : s.live i = some l) (h : Nat) :
    s.markDue h i = s.setLive i (l.marked s.house.rate h) := by
  have unmarked : l.custody.reached s.house.rate h = false → s = s.setLive i (l.marked s.house.rate h) := by
    intro e
    rw [Live.marked, e, Bool.or_false]
    exact (State.setLive_of_live hl).symm
  rw [State.markDue, onLive_of_some hl]
  cases hf : l.custody.awaited with
  | none => exact unmarked (by rw [Custody.reached, hf]; rfl)
  | some f =>
    dsimp only
    split
    · rename_i hr
      have : l.custody.reached s.house.rate h = true := by rw [Custody.reached, hf]; exact hr
      rw [State.setCustody, onLive_of_some hl, Live.marked, this, Bool.or_true]
    · rename_i hr
      exact unmarked (by rw [Custody.reached, hf]; exact Bool.eq_false_iff.2 hr)

theorem reaches_iff (s : State) (h frame : Nat) :
    reaches s.house.rate h frame = true ↔ frame ≤ h ∨ h = highestFrame s := by
  simp only [reaches, Bool.or_eq_true, decide_eq_true_eq]
  rfl

/-- A switch frame is reached while TAKING or RETURNING alone. -/
theorem reached_iff (s : State) (h : Nat) (c : Custody) :
    c.reached s.house.rate h = true ↔
      (∃ k, c.state = .taking ∧ c.takeover = some k ∧ (k.cue.switchFrame ≤ h ∨ h = highestFrame s)) ∨
      ∃ r, c.state = .returning ∧ c.ret = some r ∧ (r.frame ≤ h ∨ h = highestFrame s) := by
  unfold Custody.reached Custody.awaited
  cases c.state with
  | taking =>
    cases c.takeover with
    | none =>
      refine ⟨fun e => absurd e Bool.false_ne_true, ?_⟩
      rintro (⟨_, _, hk, _⟩ | ⟨_, hs, _⟩)
      · cases hk
      · cases hs
    | some k =>
      refine (reaches_iff s h k.cue.switchFrame).trans ⟨fun e => .inl ⟨k, rfl, rfl, e⟩, ?_⟩
      rintro (⟨_, _, hk, e⟩ | ⟨_, hs, _⟩)
      · cases hk; exact e
      · cases hs
  | returning =>
    cases c.ret with
    | none =>
      refine ⟨fun e => absurd e Bool.false_ne_true, ?_⟩
      rintro (⟨_, hs, _⟩ | ⟨_, _, hr, _⟩)
      · cases hs
      · cases hr
    | some r =>
      refine (reaches_iff s h r.frame).trans ⟨fun e => .inr ⟨r, rfl, rfl, e⟩, ?_⟩
      rintro (⟨_, hs, _⟩ | ⟨_, _, hr, e⟩)
      · cases hs
      · cases hr; exact e
  | _ =>
    refine ⟨fun e => absurd e Bool.false_ne_true, ?_⟩
    rintro (⟨_, hs, _⟩ | ⟨_, hs, _⟩)
    · cases hs
    · cases hs

theorem arrivalStep_markDue (s : State) (h : Nat) (j : Slot) : ArrivalStep j s (s.markDue h j) := by
  have act := slotAct_markDue s h j
  cases hl : s.live j with
  | none =>
    rw [State.markDue, onLive_of_none hl] at act ⊢
    exact act.arrivalStep rfl fun l e => ⟨l, e, rfl⟩
  | some l =>
    rw [markDue_eq hl] at act ⊢
    exact act.arrivalStep rfl fun m e => ⟨_, State.live_setLive_self s j _, by rw [hl] at e; cases e; rfl⟩

/-! ## The resolver's work on a channel (R66, R70, R72, R79) -/

/-- The events that an arrival at `h` retires: the due ones at the head, and none while a commit is in flight. -/
def Live.retiring (l : Live) (p : ChannelParams) (h : Nat) : List (EventRec × Resolved) :=
  if l.inFlight then [] else dueEvents l p.retention h

/-- A re-resolution leaves a custody record as it was, but for the takeover's cue and the cue counter. -/
theorem custody_reResolve (l : Live) (p : ChannelParams) (h : Option Nat) :
    ∃ n t, (l.reResolve p h).custody = { l.custody with cueCounter := n, takeover := t } := by
  unfold Live.reResolve
  dsimp only
  generalize hm : ({ ({ l with timeline := l.resolveNow, timelineRev := l.mirrorRev } : Live).redraw p h with
    followed := _ } : Live) = m
  have hc : m.custody = l.custody := by rw [← hm]; rfl
  obtain ⟨n, t, e, -⟩ := timelineChanged_custody m
  exact ⟨n, t, by rw [e, hc]⟩

theorem custody_retire (l : Live) (p : ChannelParams) (h : Nat) :
    ∃ n t, (l.retire p h).custody = { l.custody with cueCounter := n, takeover := t } := by
  unfold Live.retire
  dsimp only
  split
  · exact ⟨_, _, rfl⟩
  · exact custody_reResolve _ p _

/-- What the retirement of an arrival does to the list and what is resolved from it (R70, R72). -/
theorem retirement_eq (l : Live) (p : ChannelParams) (h : Nat) {m : Live}
    (hm : m = if l.inFlight then l else l.retire p h) :
    m.events = l.events.drop (l.retiring p h).length ∧
    m.anchor = (match (l.retiring p h).getLast? with | some x => x.2.stop | none => l.anchor) ∧
    m.timeline = (if l.retiring p h = [] then l.timeline else m.resolveNow) := by
  unfold Live.retiring
  cases hf : l.inFlight with
  | true => rw [hm, hf]; simp
  | false =>
    rw [hf] at hm
    simp only [Bool.false_eq_true, if_false] at hm ⊢
    rw [hm]
    obtain ⟨events, anchor, none, some⟩ := retire_eq l p h
    refine ⟨events, anchor, ?_⟩
    split
    · rename_i e; rw [none e]
    · rename_i e; exact some e

/-- What the retirement of an arrival keeps. -/
theorem retirement_rest (l : Live) (p : ChannelParams) (h : Nat) {m : Live}
    (hm : m = if l.inFlight then l else l.retire p h) :
    m.hold = l.hold ∧ m.batch = l.batch ∧ m.completion = l.completion ∧ m.mirrorRev = l.mirrorRev ∧
    m.sourceRev = l.sourceRev ∧ m.stale = l.stale ∧ m.flags = l.flags ∧ m.segment = l.segment ∧
    m.latestSeq = l.latestSeq ∧ ∃ n t, m.custody = { l.custody with cueCounter := n, takeover := t } := by
  cases hf : l.inFlight with
  | true => rw [hm, hf]; exact ⟨rfl, rfl, rfl, rfl, rfl, rfl, rfl, rfl, rfl, _, _, rfl⟩
  | false =>
    rw [hf] at hm
    simp only [Bool.false_eq_true, if_false] at hm
    obtain ⟨h1, h2, h3, h4, h5, h6, h7, h8, h9⟩ := retire_rest l p h
    rw [hm]
    exact ⟨h1, h2, h3, h4, h5, h6, h7, h8, h9, custody_retire l p h⟩

/-- The fields of a channel after the resolver's work. -/
structure ResolverWorked (l : Live) (p : ChannelParams) (h : Nat) (cur : Cursor) (l' : Live) : Prop where
  hold : l'.hold = l.hold.map fun r => { r with timer := r.timer - 1 }
  followed : l'.followed = some cur
  events : l'.events = l.events.drop (l.retiring p h).length
  anchor : l'.anchor = match (l.retiring p h).getLast? with | some x => x.2.stop | none => l.anchor
  timeline : l'.timeline =
    if l.retiring p h = [] then l.timeline else resolve l'.events l'.anchor (l.hold.map (·.eventId))
  protectedSet : l'.protectedSet = drawProtected l'.events l'.timeline (l.hold.map (·.eventId)) p.guard (some h)
  revisions : l'.mirrorRev = l.mirrorRev ∧ l'.sourceRev = l.sourceRev ∧ l'.stale = l.stale ∧
    l'.completion = l.completion
  batch : l'.batch = l.batch
  log : l'.segment = l.segment ∧ l'.latestSeq = l.latestSeq
  custody : ∃ n t, l'.custody = { l.custody with cueCounter := n, takeover := t }

theorem resolverWorked (l : Live) (p : ChannelParams) (h : Nat) (cur : Cursor) :
    ResolverWorked l p h cur (l.resolverWork p h cur) := by
  unfold Live.resolverWork
  generalize hm : (if l.inFlight then l else l.retire p h) = m
  obtain ⟨events, anchor, timeline⟩ := retirement_eq l p h hm.symm
  obtain ⟨hold, batch, completion, mirrorRev, sourceRev, stale, -, segment, latest, custody⟩ :=
    retirement_rest l p h hm.symm
  rw [Live.resolveNow, hold] at timeline
  have hold' : m.hold.map (·.eventId) = l.hold.map (·.eventId) := by rw [hold]
  exact {
    hold := by rw [← hold]; rfl
    followed := rfl
    events := events
    anchor := anchor
    timeline := timeline
    protectedSet := by rw [← hold']; rfl
    revisions := ⟨mirrorRev, sourceRev, stale, completion⟩
    batch := batch
    log := ⟨segment, latest⟩
    custody := custody }

theorem arrivalStep_resolverArrival (s : State) (h : Nat) (advancing : Bool) (j : Slot) :
    ArrivalStep j s (s.resolverArrival (some h) advancing j) where
  toSlotAct := slotAct_resolverArrival s (some h) advancing j
  log off := by
    cases hl : s.live j with
    | none =>
      rw [State.resolverArrival, onLive_of_none hl]
      exact ⟨rfl, off⟩
    | some l =>
      have silent : (advancing && isDrOutput l.custody.output) = false := by rw [off l hl, Bool.and_false]
      simp only [resolverArrival_some hl, silent, Bool.false_eq_true, if_false, onLive_of_some hl]
      refine ⟨rfl, fun m hm => ?_⟩
      rw [State.live_setLive_self] at hm
      cases hm
      obtain ⟨n, t, e⟩ := (resolverWorked l (s.params j) h (l.cursor h)).custody
      rw [e]
      exact off l hl

/-! ## The conditions of a channel (R112, R117) -/

/-- What an arrival that carries `h` and no time set leaves of a custody record: L recomputed while Port L is PRESENT,
and the evaluation where it changed. -/
structure ConditionsTaken (p : ChannelParams) (link : Bool) (h : Nat) (before after : Custody) : Prop where
  evaluated : EvaluatedOnChange p (some h) before after
  rest : after = { before.recomputeL link h p.lagLimit with
    state := after.state, lastEval := after.lastEval, cueCounter := after.cueCounter, takeover := after.takeover
    switchDue := after.switchDue }
  switchDue : after.switchDue = before.switchDue ∨
    ((before.state = .main ∨ before.state = .safe) ∧ after.switchDue = false)

/-- The carrying out of an action touches of its channel the custody record alone, and makes no switch due. -/
theorem carryOut_rest {s : State} {i : Slot} {l : Live} (hl : s.live i = some l) (a : PolicyAction) :
    (s.carryOut i a).1.asRun = s.asRun ∧ ∃ c, (s.carryOut i a).1.live i = some { l with custody := c } ∧
      (c.switchDue = l.custody.switchDue ∨ c.switchDue = false) := by
  rcases carryOut_cases s i a with e | ⟨o, e, -⟩ | ⟨d, m, e, -⟩ <;> rw [e]
  · exact ⟨rfl, l.custody, hl, .inl rfl⟩
  · exact ⟨by simp, l.custody, by simpa using hl, .inl rfl⟩
  · exact ⟨(enterTaking_rest s i d .policy m).2.1, _, enterTaking_channel hl d .policy m, .inr rfl⟩

/-- So does an evaluation, which is made in MAIN and SAFE alone. -/
theorem evaluate_rest {s : State} {i : Slot} {l : Live} (hl : s.live i = some l) :
    (s.evaluate i).1.asRun = s.asRun ∧ ∃ c, (s.evaluate i).1.live i = some { l with custody := c } ∧
      (c.switchDue = l.custody.switchDue ∨
        ((l.custody.state = .main ∨ l.custody.state = .safe) ∧ c.switchDue = false)) := by
  by_cases rests : l.custody.state = .main ∨ l.custody.state = .safe
  · obtain ⟨log, c, hc, due⟩ := carryOut_rest hl ((s.params i).policy.getD l.custody.index .none)
    rw [evaluate_of_rests hl rests, onLive_of_some hc, State.setCustody, onLive_of_some hc]
    refine ⟨log, _, State.live_setLive_self _ i _, ?_⟩
    exact due.imp id fun d => ⟨rests, d⟩
  · rw [evaluate_of_other hl (fun e => rests (.inl e)) (fun e => rests (.inr e))]
    exact ⟨rfl, l.custody, hl, .inl rfl⟩

/-- So does one event's change of conditions. -/
theorem changeConditions_rest {s : State} {i : Slot} {l : Live} (hl : s.live i = some l) (f : Live → Custody → Custody) :
    (s.changeConditions i f).1.asRun = s.asRun ∧ ∃ c, (s.changeConditions i f).1.live i = some { l with custody := c } ∧
      (c.switchDue = (f l l.custody).switchDue ∨
        (((f l l.custody).state = .main ∨ (f l l.custody).state = .safe) ∧ c.switchDue = false)) := by
  have changed : s.setCustody i (f l l.custody) = s.setLive i { l with custody := f l l.custody } := by
    rw [State.setCustody, onLive_of_some hl]
  unfold State.changeConditions
  rw [hl]
  dsimp only
  rw [changed]
  split
  · exact ⟨rfl, _, State.live_setLive_self s i _, .inl rfl⟩
  · exact evaluate_rest (State.live_setLive_self s i _)

/-- The Custody Controller's work on a channel in service. -/
theorem custodyArrival_own {s : State} {i : Slot} {l : Live} (hl : s.live i = some l) {h : Nat}
    (hh : s.houseFrame = some h) :
    (s.custodyArrival h false i).asRun = s.asRun ∧
    ∃ c, (s.custodyArrival h false i).live i = some { l with custody := c } ∧
      ConditionsTaken (s.params i) (s.present .L) h l.custody c := by
  obtain ⟨log, c, hc, due⟩ := changeConditions_rest hl
    fun _ c => Custody.recomputeL (s.present .L) h (s.params i).lagLimit c
  obtain ⟨l1, hl1, evaluated, rest⟩ := changeConditions_channel hl
    (f := fun _ c => Custody.recomputeL (s.present .L) h (s.params i).lagLimit c)
    (by rw [recomputeL_eq]) (by rw [recomputeL_eq])
  have same : l1 = { l with custody := c } := Option.some.inj (hl1.symm.trans hc)
  rw [same] at evaluated rest
  rw [hh] at evaluated
  rw [recomputeL_eq] at due
  exact ⟨log, c, hc, evaluated, rest, due⟩

theorem arrivalStep_custodyArrival (s : State) (h : Nat) (j : Slot) : ArrivalStep j s (s.custodyArrival h false j) := by
  have act := slotAct_custodyArrival s h false j
  cases hl : s.live j with
  | none =>
    have idle : s.custodyArrival h false j = s := by
      unfold State.custodyArrival State.changeConditions
      rw [hl]
    rw [idle] at act ⊢
    exact act.arrivalStep rfl fun l e => ⟨l, e, rfl⟩
  | some l =>
    refine act.arrivalStep (changeConditions_rest hl _).1 fun m e => ?_
    rw [hl] at e
    cases e
    obtain ⟨l1, hl1, -, rest⟩ := changeConditions_channel hl
      (f := fun _ c => Custody.recomputeL (s.present .L) h (s.params j).lagLimit c)
      (by rw [recomputeL_eq]) (by rw [recomputeL_eq])
    exact ⟨l1, hl1, by rw [rest, recomputeL_eq]⟩

end Sys2Proof.Machine
end

section
/-! The as-run entries and the segment of a channel under a DR output on an advancing arrival (R67, R166 to
R168), and the arrival at one channel as a whole. -/

namespace Sys2Proof.Machine

/-! ## Several entries written in order (R163) -/

/-- A body with its sequence number, as the entry that is written in `s` for slot `i` at a frame. -/
def numberedEntry (s : State) (i : Slot) (frame : Nat) (x : EntryBody × Nat) : LogEntry :=
  ⟨x.2, i.val, s.service i, frame, s.house.rate, x.1⟩

theorem numberedEntry_congr {s t : State} (hp : ∀ j, t.params j = s.params j) (hh : t.house = s.house) (i : Slot)
    (frame : Nat) : numberedEntry t i frame = numberedEntry s i frame := by
  funext x
  rw [numberedEntry, numberedEntry, State.service, State.service, hp, hh]

/-- An entry that finds fewer than 2,048 retained after the part `old` of the ring stands at the end, and no entry after
`old` goes for it. -/
theorem pushEntry_append {old done : List LogEntry} (h : done.length < Config.ringEntries) (e : LogEntry) :
    ∃ old', pushEntry (old ++ done) e = old' ++ (done ++ [e]) := by
  unfold pushEntry
  split
  · exact ⟨old, List.append_assoc old done [e]⟩
  · rename_i full
    cases old with
    | nil => exact absurd h full
    | cons x old => exact ⟨old, List.append_assoc old done [e]⟩

/-- Up to 2,048 entries that leave numbers over stand at the end of the ring, in order, after those just written. -/
theorem asRun_writeEntries (i : Slot) (frame : Nat) (bodies : List EntryBody) {s : State} {n : Nat}
    {old done : List LogEntry} (hr : s.asRun.ring = old ++ done) (hn : s.asRun.nextSeq = some n)
    (numbers : n + bodies.length ≤ Config.lastSequence) (room : done.length + bodies.length ≤ Config.ringEntries) :
    (s.writeEntries i frame bodies).asRun.nextSeq = some (n + bodies.length) ∧
    ∃ old', (s.writeEntries i frame bodies).asRun.ring =
      old' ++ (done ++ (bodies.zipIdx n).map (numberedEntry s i frame)) := by
  induction bodies generalizing s n old done with
  | nil => exact ⟨hn, old, by simpa [State.writeEntries] using hr⟩
  | cons b bodies ih =>
    obtain ⟨-, -, house, -, params, -⟩ := writeEntry_rest s i frame b
    have log := asRun_writeEntry s i frame b
    simp only [hn] at log
    rw [List.length_cons] at numbers room
    obtain ⟨old1, pushed⟩ := pushEntry_append (old := old) (done := done) (by omega)
      (numberedEntry s i frame (b, n))
    have last : n ≠ Config.lastSequence := by omega
    obtain ⟨next, old', ring⟩ := ih (s := s.writeEntry i frame b) (n := n + 1) (old := old1)
      (done := done ++ [numberedEntry s i frame (b, n)]) (by rw [log, ← pushed, ← hr]; rfl)
      (by rw [log]; exact if_neg last) (by omega) (by rw [List.length_append, List.length_singleton]; omega)
    rw [numberedEntry_congr params house] at ring
    refine ⟨?_, old', ?_⟩
    · rw [List.length_cons, Nat.add_comm bodies.length, ← Nat.add_assoc]
      exact next
    · rw [writeEntries_cons, ring, List.zipIdx_cons, List.map_cons, List.append_assoc done, List.singleton_append]

/-- The channel that entries are written for takes the last of their numbers. -/
theorem live_writeEntries (i : Slot) (frame : Nat) (bodies : List EntryBody) {s : State} {l : Live} {n : Nat}
    (hl : s.live i = some l) (hn : s.asRun.nextSeq = some n) (numbers : n + bodies.length ≤ Config.lastSequence) :
    (s.writeEntries i frame bodies).live i =
      some { l with latestSeq := if bodies = [] then l.latestSeq else n + bodies.length - 1 } := by
  induction bodies generalizing s l n with
  | nil => exact hl
  | cons b bodies ih =>
    have log := asRun_writeEntry s i frame b
    have live := live_writeEntry s i frame b i
    simp only [hn, hl, if_true, Option.map_some] at log live
    rw [List.length_cons] at numbers
    have last : n ≠ Config.lastSequence := by omega
    have rest := ih (s := s.writeEntry i frame b) live (by rw [log]; exact if_neg last) (by omega)
    have number : (if bodies = [] then n else n + 1 + bodies.length - 1) = n + (b :: bodies).length - 1 := by
      cases bodies
      · rfl
      · rw [if_neg (List.cons_ne_nil _ _)]; simp only [List.length_cons]; omega
    rw [if_neg (List.cons_ne_nil b bodies), ← number]
    exact rest

/-- Entries written leave of the channel all but its latest number alone. -/
theorem live_writeEntries_of_live (i : Slot) (frame : Nat) (bodies : List EntryBody) {s : State} {l : Live}
    (hl : s.live i = some l) : ∃ n, (s.writeEntries i frame bodies).live i = some { l with latestSeq := n } := by
  induction bodies generalizing s l with
  | nil => exact ⟨l.latestSeq, hl⟩
  | cons b bodies ih =>
    have live := live_writeEntry s i frame b i
    rw [writeEntries_cons]
    cases hn : s.asRun.nextSeq with
    | none =>
      simp only [hn, hl] at live
      exact ih live
    | some n =>
      simp only [hn, hl, if_true, Option.map_some] at live
      obtain ⟨m, e⟩ := ih live
      exact ⟨m, e⟩

theorem setSegment_eq {s : State} {i : Slot} {l : Live} (hl : s.live i = some l) (g : Option Segment) :
    s.setSegment i g = s.setLive i { l with segment := g } := by
  rw [State.setSegment, onLive_of_some hl]

/-! ## The notices of an advancing arrival (R67) -/

/-- The segment, where there is one, is of the event followed. -/
def Live.SegmentFollowed (l : Live) : Prop :=
  ∀ g, l.segment = some g → ∃ f, l.followed = some (.event f) ∧ f.id = g.eventId

/-- The segment that an arrival at `h` does not close: the one of the event it finds on air. -/
def Live.keptSegment (l : Live) (h : Nat) : Option Segment := l.segment.filter fun g => (l.cursor h).onEvent g.eventId

/-- The segment after an advancing arrival at `h` under a DR output. -/
def Live.nextSegment (l : Live) (h : Nat) : Option Segment :=
  match l.cursor h with
  | .event e => if (l.followed.any fun f => f.onEvent e.id) = true then l.segment
      else some ⟨e.id, h, e.lateness, l.custody.output⟩
  | _ => none

/-- The entry that the close of an ended event's segment writes. -/
def Live.endedEntries (l : Live) (h : Nat) : List EntryBody :=
  match l.segment with
  | some g => if (l.cursor h).onEvent g.eventId = false ∧ g.firstFrame < h then
      [.aired g.eventId g.firstFrame g.firstOffset (h - g.firstFrame) g.output] else []
  | none => []

theorem arrivalEntries_eq (l : Live) (h : Nat) : arrivalEntries l h = l.endedEntries h ++ l.skippedEntries h := by
  unfold arrivalEntries Live.endedEntries
  cases l.segment <;> rfl

/-- The end notice closes the segment of the event that ended, and writes its entry where it aired (R167). -/
theorem afterEnd_eq {s : State} {i : Slot} {l : Live} (hl : s.live i = some l) (followed : l.SegmentFollowed) (h : Nat) :
    s.afterEnd i l.followed (l.cursor h) h =
      (s.setSegment i (l.keptSegment h)).writeEntries i h (l.endedEntries h) := by
  have same : l.keptSegment h = l.segment → s.setSegment i (l.keptSegment h) = s := by
    intro e
    rw [e, setSegment_eq hl]
    exact State.setLive_of_live hl
  unfold State.afterEnd Live.endedEntries
  cases hg : l.segment with
  | none =>
    have unopened : s.segmentEvent i = none := by simp [State.segmentEvent, hl, hg]
    have idle : ∀ id, s.endNotice i id h = s := fun id => by simp [State.endNotice, unopened]
    rw [same (by rw [Live.keptSegment, hg]; rfl)]
    simp only [idle, ite_self]
    split <;> rfl
  | some g =>
    obtain ⟨f, hf, hid⟩ := followed g hg
    simp only [hf, hid]
    cases on : (l.cursor h).onEvent g.eventId with
    | true =>
      rw [same (by rw [Live.keptSegment, hg, Option.filter_some, on]; rfl)]
      simp [State.writeEntries]
    | false =>
      have event : s.segmentEvent i = some g.eventId := by simp [State.segmentEvent, hl, hg]
      have kept : l.keptSegment h = none := by rw [Live.keptSegment, hg, Option.filter_some, on]; rfl
      rw [kept, State.endNotice, if_pos event, State.closeSegment, onLive_of_some hl, hg]
      by_cases aired : g.firstFrame < h <;> simp [aired, State.writeEntries]

/-- The log and the channel after the notices of an arrival: the entries in order, and the segment of the event on air. -/
theorem notices_log {s : State} {i : Slot} {l : Live} (hl : s.live i = some l) (followed : l.SegmentFollowed) (h : Nat) :
    (s.notices i l l.followed (l.cursor h) h).asRun =
      ((s.setSegment i (l.keptSegment h)).writeEntries i h (arrivalEntries l h)).asRun ∧
    ∃ n, ((s.setSegment i (l.keptSegment h)).writeEntries i h (arrivalEntries l h)).live i =
        some { l with segment := l.keptSegment h, latestSeq := n } ∧
      (s.notices i l l.followed (l.cursor h) h).live i = some { l with segment := l.nextSegment h, latestSeq := n } := by
  have closed : (s.setSegment i (l.keptSegment h)).live i = some { l with segment := l.keptSegment h } := by
    rw [setSegment_eq hl, State.live_setLive_self]
  obtain ⟨n, written⟩ := live_writeEntries_of_live i h (arrivalEntries l h) closed
  rw [notices_eq, afterEnd_eq hl followed, ← writeEntries_append, ← arrivalEntries_eq]
  generalize (s.setSegment i (l.keptSegment h)).writeEntries i h (arrivalEntries l h) = u at written ⊢
  unfold Live.nextSegment State.afterStart
  cases hc : l.cursor h with
  | event e =>
    dsimp only
    split
    · rename_i was
      refine ⟨rfl, n, written, ?_⟩
      have kept : l.keptSegment h = l.segment := by
        cases hg : l.segment with
        | none => rw [Live.keptSegment, hg]; rfl
        | some g =>
          obtain ⟨f, hf, hid⟩ := followed g hg
          have on : f.id = e.id := by simpa [hf, Cursor.onEvent] using was
          rw [Live.keptSegment, hg, hc]
          simp [Cursor.onEvent, ← hid, on]
      rw [written, kept]
    · rename_i was
      have kept : l.keptSegment h = none := by
        cases hg : l.segment with
        | none => rw [Live.keptSegment, hg]; rfl
        | some g =>
          obtain ⟨f, hf, hid⟩ := followed g hg
          have off : ¬ f.id = e.id := by simpa [hf, Cursor.onEvent] using was
          rw [Live.keptSegment, hg, hc]
          simp [Cursor.onEvent, ← hid, Ne.symm off]
      have unopened : u.segmentEvent i = none := by simp [State.segmentEvent, written, kept]
      have started : u.startNotice i e.id h e.lateness l.custody.output =
          u.setLive i { l with segment := some ⟨e.id, h, e.lateness, l.custody.output⟩, latestSeq := n } := by
        have idle : u.closeSegment i h = u := by
          rw [State.closeSegment, onLive_of_some written, kept]
        rw [State.startNotice, unopened, if_neg (by simp), idle, setSegment_eq written]
      rw [started]
      exact ⟨rfl, n, written, State.live_setLive_self u i _⟩
  | _ =>
    have kept : l.keptSegment h = none := by
      rw [Live.keptSegment, hc]
      cases l.segment <;> rfl
    exact ⟨rfl, n, written, by rw [written, kept]⟩

/-- The log `a` holds, and the channel's latest number says, the entries that an advancing arrival at `h` writes, under
the numbers that the log of `s` was to give. -/
def EntriesWritten (s : State) (i : Slot) (l : Live) (h latest : Nat) (a : AsRun) : Prop :=
  ∀ n, s.asRun.nextSeq = some n → n + (arrivalEntries l h).length ≤ Config.lastSequence →
    (arrivalEntries l h).length ≤ Config.ringEntries →
    (a.nextSeq = some (n + (arrivalEntries l h).length) ∧
      ((arrivalEntries l h).zipIdx n).map (numberedEntry s i h) <:+ a.ring) ∧
    latest = if arrivalEntries l h = [] then l.latestSeq else n + (arrivalEntries l h).length - 1

theorem notices_written {s u : State} {i : Slot} {l : Live} (hl : u.live i = some l) (followed : l.SegmentFollowed)
    (h : Nat) (hp : ∀ j, u.params j = s.params j) (hh : u.house = s.house) :
    ∃ n, (u.notices i l l.followed (l.cursor h) h).live i = some { l with segment := l.nextSegment h, latestSeq := n } ∧
      (u.asRun = s.asRun → EntriesWritten s i l h n (u.notices i l l.followed (l.cursor h) h).asRun) := by
  obtain ⟨log, latest, written, live⟩ := notices_log hl followed h
  refine ⟨latest, live, fun same n hn numbers room => ?_⟩
  have log0 : (u.setSegment i (l.keptSegment h)).asRun = s.asRun := by rw [setSegment_eq hl]; exact same
  have live0 : (u.setSegment i (l.keptSegment h)).live i = some { l with segment := l.keptSegment h } := by
    rw [setSegment_eq hl, State.live_setLive_self]
  have params0 : ∀ j, (u.setSegment i (l.keptSegment h)).params j = s.params j := fun j => by
    rw [setSegment_eq hl, State.params_setLive, hp]
  have house0 : (u.setSegment i (l.keptSegment h)).house = s.house := by rw [setSegment_eq hl]; exact hh
  obtain ⟨next, old, ring⟩ := asRun_writeEntries i h (arrivalEntries l h) (done := [])
    (List.append_nil _).symm (by rw [log0]; exact hn) numbers (by simpa using room)
  have number := live_writeEntries i h (arrivalEntries l h) live0 (by rw [log0]; exact hn) numbers
  rw [written] at number
  rw [log]
  refine ⟨⟨next, old, ?_⟩, congrArg Live.latestSeq (Option.some.inj number)⟩
  rw [ring, numberedEntry_congr params0 house0]
  rfl

end Sys2Proof.Machine
end

section
/-! The arrival at one channel as a whole, stage by stage, and the advance of the house frame (R5, R6, R8). -/

namespace Sys2Proof.Machine

/-! ## The passes of an arrival at one channel -/

/-- Where no switch is taken before the resolver's work, the Custody Controller notes the frames reached alone. -/
theorem custodyNotes_nil (s : State) (h : Nat) (timeSet advancing : Bool) :
    s.custodyNotes ⟨some h, timeSet, advancing⟩ [] = forSlots (fun i s => s.markDue h i) s := by
  simp only [State.custodyNotes, List.foldl_nil]

theorem Stage.markPass {s : State} {r : Reference} {i : Slot} {l : Live} {A : AsRun → Prop} {u : State}
    (hu : Stage s r i l A u) (h : Nat) :
    Stage s r i (l.marked s.house.rate h) A (forSlots (fun j s => s.markDue h j) u) := by
  refine forSlots_at (P := Stage s r i l A) (Q := Stage s r i (l.marked s.house.rate h) A) i
    (fun j v hj hv => hv.other hj (arrivalStep_markDue v h j)) (fun v hv => ?_)
    (fun j v hj hv => hv.other hj (arrivalStep_markDue v h j)) hu
  have marked := markDue_eq hv.live h
  refine hv.own (slotAct_markDue v h i) ?_ ?_
  · rw [marked, State.live_setLive_self, hv.house]
  · rw [marked]; exact id

/-- The channel with another segment and latest number. -/
def Live.withLog (l : Live) (g : Option Segment) (n : Nat) : Live := { l with segment := g, latestSeq := n }

/-- The notices of an arrival are sent: it is advancing, and the channel is under a DR output (R67). -/
def Live.notified (l : Live) (advancing : Bool) : Bool := advancing && isDrOutput l.custody.output

/-- What the notices of an arrival leave of the segment and the latest number. -/
structure LogTaken (l : Live) (h : Nat) (advancing : Bool) (g : Option Segment) (n : Nat) : Prop where
  silent : l.notified advancing = false → g = l.segment ∧ n = l.latestSeq
  opened : l.notified advancing = true → l.SegmentFollowed → g = l.nextSegment h

/-- What they leave of the log, where no other channel is under a DR output. -/
def LogWritten (s : State) (i : Slot) (l : Live) (h : Nat) (advancing : Bool) (n : Nat) (a : AsRun) : Prop :=
  l.notified advancing = true → l.SegmentFollowed → EntriesWritten s i l h n a

/-- The stage of a channel after the resolver's work on it. -/
def ResolverStage (s : State) (r : Reference) (i : Slot) (l : Live) (h : Nat) (advancing : Bool) (u : State) : Prop :=
  ∃ g n, LogTaken l h advancing g n ∧
    Stage s r i ((l.withLog g n).resolverWork (s.params i) h (l.cursor h)) (LogWritten s i l h advancing n) u

theorem Stage.resolverArrival {s : State} {r : Reference} {i : Slot} {l : Live} {u : State}
    (hu : Stage s r i l (· = s.asRun) u) (h : Nat) (advancing : Bool) :
    ResolverStage s r i l h advancing (u.resolverArrival (some h) advancing i) := by
  have act := slotAct_resolverArrival u (some h) advancing i
  rw [resolverArrival_some hu.live] at act ⊢
  cases notified : l.notified advancing with
  | false =>
    have silent : (advancing && isDrOutput l.custody.output) = false := notified
    simp only [silent, Bool.false_eq_true, if_false, onLive_of_some hu.live, hu.params] at act ⊢
    refine ⟨l.segment, l.latestSeq, ⟨fun _ => ⟨rfl, rfl⟩, fun e => ?_⟩,
      hu.own act (State.live_setLive_self u i _) fun _ e => ?_⟩
    · rw [notified] at e; cases e
    · rw [notified] at e; cases e
  | true =>
    have sent : (advancing && isDrOutput l.custody.output) = true := notified
    have noticed : ∃ g n, LogTaken l h advancing g n ∧
        (u.notices i l l.followed (l.cursor h) h).live i = some (l.withLog g n) ∧
        (u.asRun = s.asRun → LogWritten s i l h advancing n (u.notices i l l.followed (l.cursor h) h).asRun) := by
      by_cases followed : l.SegmentFollowed
      · obtain ⟨n, live, written⟩ := notices_written hu.live followed h hu.params hu.house
        refine ⟨_, n, ⟨fun e => ?_, fun _ _ => rfl⟩, live, fun same _ _ => written same⟩
        rw [notified] at e; cases e
      · obtain ⟨g, n, live⟩ := (logActs_notices u i l l.followed (l.cursor h) h).channel l hu.live
        refine ⟨g, n, ⟨fun e => ?_, fun _ e => absurd e followed⟩, live, fun _ _ e => absurd e followed⟩
        rw [notified] at e; cases e
    obtain ⟨g, n, taken, live, written⟩ := noticed
    have params := (slotAct_notices u i l l.followed (l.cursor h) h).params i
    simp only [sent, if_true, onLive_of_some live, params, hu.params] at act ⊢
    exact ⟨g, n, taken, hu.own act (State.live_setLive_self _ i _) written⟩

theorem Stage.resolverPass {s : State} {r : Reference} {i : Slot} {l : Live} {u : State}
    (hu : Stage s r i l (· = s.asRun) u) (h : Nat) (advancing : Bool) :
    ResolverStage s r i l h advancing (forSlots (fun j s => s.resolverArrival (some h) advancing j) u) := by
  refine forSlots_at (P := Stage s r i l (· = s.asRun)) (Q := ResolverStage s r i l h advancing) i
    (fun j v hj hv => hv.other hj (arrivalStep_resolverArrival v h advancing j))
    (fun v hv => hv.resolverArrival h advancing) (fun j v hj hv => ?_) hu
  obtain ⟨g, n, taken, stage⟩ := hv
  exact ⟨g, n, taken, stage.other hj (arrivalStep_resolverArrival v h advancing j)⟩

theorem Stage.custodyPass {s : State} {r : Reference} {i : Slot} {l : Live} {A : AsRun → Prop} {u : State}
    (hu : Stage s r i l A u) (hr : r.refState ≠ .unset) :
    ∃ c, ConditionsTaken (s.params i) (s.present .L) r.h l.custody c ∧
      Stage s r i { l with custody := c } A (forSlots (fun j s => s.custodyArrival r.h false j) u) := by
  refine forSlots_at (P := Stage s r i l A)
    (Q := fun v => ∃ c, ConditionsTaken (s.params i) (s.present .L) r.h l.custody c ∧
      Stage s r i { l with custody := c } A v) i
    (fun j v hj hv => hv.other hj (arrivalStep_custodyArrival v r.h j)) (fun v hv => ?_) (fun j v hj hv => ?_) hu
  · have frame : v.houseFrame = some r.h := by
      rw [houseFrame_of_set (by rw [hv.reference]; exact hr), hv.reference]
    obtain ⟨log, c, live, taken⟩ := custodyArrival_own hv.live frame
    rw [hv.params, hv.present] at taken
    exact ⟨c, taken, hv.own (slotAct_custodyArrival v r.h false i) live (by rw [log]; exact id)⟩
  · obtain ⟨c, taken, stage⟩ := hv
    exact ⟨c, taken, stage.other hj (arrivalStep_custodyArrival v r.h j)⟩

theorem asRun_leasePass (s : State) : (forSlots State.leaseArrival s).asRun = s.asRun := by
  refine forSlots_induct (P := fun t => t.asRun = s.asRun) (fun j t ht => ?_) rfl
  cases hl : t.live j with
  | none => rw [State.leaseArrival, onLive_of_none hl, ht]
  | some l => rw [leaseArrival_eq hl, State.asRun_setLive, ht]

/-! ## The arrival at one channel -/

/-- The Reference Counter leaves every channel at the stage it was at. -/
theorem stage_reference {s : State} {i : Slot} {l : Live} (hl : s.live i = some l) (r : Reference) (before : RefState) :
    Stage s r i l (· = s.asRun) ((s.setReference r).recordRefLost before) := by
  obtain ⟨reference, house, log, params, live, ports⟩ := recordRefLost_rest (s.setReference r) before
  refine ⟨reference, house, params, ?_, (live i).trans hl, fun off => ⟨fun j hj m hm => ?_, log⟩⟩
  · rw [State.present, ports, State.port_setReference]; rfl
  · rw [live j] at hm; exact off j hj m hm

/-- A channel after an arrival that carries `h`, by what the notices, the resolver and the Custody Controller have made
of it. -/
def Live.afterArrival (l : Live) (p : ChannelParams) (h : Nat) (g : Option Segment) (n : Nat) (c : Custody) : Live :=
  Live.stepLease { (l.withLog g n).resolverWork p h (l.cursor h) with custody := c }

/-- An arrival that carries H, at a channel: where nothing due is left over, no time set is pending and no switch is
taken before the resolver's work. -/
theorem deliverArrival_channel {s : State} (hp : s.reference.pendingSet = none) (quiet : Quiet s)
    (hset : s.reference.refState ≠ .unset) (moment : Nat) (src : ArrivalSource) {i : Slot} {l : Live}
    (hl : s.live i = some l) :
    let h := arrivalFrame s
    let m := l.marked s.house.rate h
    let advancing := decide (h = s.reference.h + 1)
    ∃ g n c, (s.deliverArrival moment src []).live i = some (m.afterArrival (s.params i) h g n c) ∧
      LogTaken m h advancing g n ∧
      ConditionsTaken (s.params i) (s.present .L) h ((m.withLog g n).resolverWork (s.params i) h (m.cursor h)).custody c ∧
      (OthersOffAir i s → LogWritten s i m h advancing n (s.deliverArrival moment src []).asRun) := by
  intro h m advancing
  have reference : advancedReference s moment src = ⟨sourceState src, h, some ⟨moment, src⟩, none⟩ := if_neg hset
  have set : (advancedReference s moment src).refState ≠ .unset := by rw [reference]; cases src <;> simp [sourceState]
  have plain : plainArrival s moment src = ⟨some h, false, advancing⟩ := by
    unfold plainArrival
    rw [houseFrame_of_set set, State.reference_setReference, reference]
    simp [advancing]
  have counted : s.settleDue.referenceArrival moment src =
      ((s.setReference (advancedReference s moment src)).recordRefLost s.reference.refState, ⟨some h, false, advancing⟩) := by
    rw [settleDue_of_quiet quiet, referenceArrival_plain hp, plain]
  rw [deliverArrival_of_some counted, custodyNotes_nil]
  have frame : (advancedReference s moment src).h = h := by rw [reference]
  obtain ⟨g, n, taken, resolved⟩ :=
    ((stage_reference hl (advancedReference s moment src) s.reference.refState).markPass h).resolverPass h advancing
  obtain ⟨c, conditions, stage⟩ := resolved.custodyPass set
  rw [frame] at conditions stage
  refine ⟨g, n, c, ?_, taken, conditions, fun off => ?_⟩
  · rw [live_presencePass]
    exact live_leasePass stage.live
  · have log : ∀ t : State, t.presencePass.asRun = t.asRun := fun t => by simp [State.presencePass]
    rw [log, asRun_leasePass]
    exact (stage.log off).2

/-- An arrival without H, at a channel: its hold and lease timers are lowered. -/
theorem deliverArrival_unset {s : State} (hp : s.reference.pendingSet = none) (quiet : Quiet s)
    (hunset : s.reference.refState = .unset) (moment : Nat) (src : ArrivalSource) {i : Slot} {l : Live}
    (hl : s.live i = some l) : (s.deliverArrival moment src []).live i = some l.stepHold.stepLease := by
  have reference : (advancedReference s moment src).refState = .unset := by
    rw [advancedReference, if_pos hunset]; exact hunset
  have plain : plainArrival s moment src = ⟨none, false, false⟩ := by
    unfold plainArrival
    rw [houseFrame_of_unset reference]
    rfl
  have counted : s.settleDue.referenceArrival moment src =
      ((s.setReference (advancedReference s moment src)).recordRefLost s.reference.refState, ⟨none, false, false⟩) := by
    rw [settleDue_of_quiet quiet, referenceArrival_plain hp, plain]
  rw [deliverArrival_of_none counted, live_presencePass]
  refine live_leasePass ?_
  refine forSlots_at (P := fun t => t.live i = some l) (Q := fun t => t.live i = some l.stepHold) i
    (fun j t hj ht => ((slotAct_resolverArrival t none false j).others i hj.symm).trans ht)
    (fun t ht => by rw [resolverArrival_none ht, State.live_setLive_self])
    (fun j t hj ht => ((slotAct_resolverArrival t none false j).others i hj.symm).trans ht)
    ((stage_reference hl _ _).live)

/-! ## The statement (R5, R6, R8, R66 to R72, R79, R89, R112, R117) -/

/-- What the conditions taken leave of the custody record. -/
theorem ConditionsTaken.kept {p : ChannelParams} {link : Bool} {h : Nat} {before after : Custody}
    (k : ConditionsTaken p link h before after) :
    after.custodian = before.custodian ∧ after.output = before.output ∧ after.m = before.m ∧ after.s = before.s ∧
    after.a = before.a ∧ after.l = if link then lagging h p.lagLimit before.behind else before.l := by
  rw [k.rest, recomputeL_eq]
  exact ⟨rfl, rfl, rfl, rfl, rfl, rfl⟩

/-- A switch is due after an arrival exactly where it was reached: where an evaluation has made one no longer due, the
channel was in MAIN or SAFE and waited for none. -/
theorem ConditionsTaken.switchDue_iff {p : ChannelParams} {link : Bool} {h : Nat} {before after c : Custody}
    (k : ConditionsTaken p link h before after) (rate : HouseRate) (hs : before.state = c.state)
    (hd : before.switchDue = c.reached rate h) : after.switchDue = true ↔ c.reached rate h = true := by
  rcases k.switchDue with e | ⟨rests, e⟩
  · rw [e, hd]
  · have unreached : c.reached rate h = false := by
      rw [hs] at rests
      unfold Custody.reached Custody.awaited
      rcases rests with e | e <;> rw [e] <;> rfl
    rw [e, unreached]

/-- Settles O22: the house by `deliverArrival_plain`, each channel by the stages it goes through. -/
theorem arrivalsAdvanceTheHouseFrame : Obligations.ArrivalsAdvanceTheHouseFrame := by
  unfold Obligations.ArrivalsAdvanceTheHouseFrame
  refine ⟨fun s moment first hp => ?_, fun s moment src c hp quiet arrival =>
    ⟨_, exec_of_isArrival arrival, fun i l hl => ?_⟩⟩
  · refine ⟨fun counts => ?_, fun due => ?_, exec_insertedArrival_early first, fun _ => exec_housePulse_repeat first⟩
    · obtain ⟨house, timers, reference, -⟩ := deliverArrival_plain hp moment .pulse first
      exact ⟨_, exec_of_isArrival (.inl ⟨rfl, rfl, counts⟩), house, fun p => (timers p).trans (stepTimer_unexpired _),
        reference.trans (advancedReference_plain hp moment _)⟩
    · obtain ⟨house, timers, reference, refLost⟩ := deliverArrival_plain hp moment .timebase first
      rw [advancedReference_flywheel_iff] at refLost
      exact ⟨_, exec_of_isArrival (.inr ⟨rfl, rfl, due⟩), house, fun p => (timers p).trans (stepTimer_unexpired _),
        reference.trans (advancedReference_plain hp moment _), refLost⟩
  · by_cases hunset : s.reference.refState = .unset
    · refine ⟨_, deliverArrival_unset hp quiet hunset moment src hl, ?_⟩
      exact ⟨rfl, rfl, fun _ => rfl, fun e => absurd hunset e⟩
    · obtain ⟨g, n, c', live, log, conditions, written⟩ := deliverArrival_channel hp quiet hunset moment src hl
      refine ⟨_, live, ?_⟩
      have work := resolverWorked ((l.marked s.house.rate (arrivalFrame s)).withLog g n) (s.params i) (arrivalFrame s)
        ((l.marked s.house.rate (arrivalFrame s)).cursor (arrivalFrame s))
      obtain ⟨mirrorRev, sourceRev, stale, completion⟩ := work.revisions
      obtain ⟨counter, takeover, custody⟩ := work.custody
      obtain ⟨segment, latest⟩ := work.log
      have due := conditions.switchDue_iff (c := l.custody) s.house.rate (by rw [custody]; rfl) (by
        rw [custody]
        show (l.custody.switchDue || _) = _
        rw [((quiet.2 i l hl).1)]
        rfl)
      obtain ⟨custodian, output, hm, hs, ha, lag⟩ := conditions.kept
      have evaluated := conditions.evaluated
      rw [custody] at custodian output hm hs ha lag evaluated
      refine ⟨work.hold, congrArg (Option.map _) work.batch, fun e => absurd e hunset, fun _ => ⟨work.followed, work.events,
        work.anchor, work.timeline, work.protectedSet, mirrorRev, sourceRev, stale, completion, custodian, output, hm, hs,
        ha, lag, evaluated, due.trans (reached_iff s _ _), fun silent => ?_, fun dr advances followed => ?_⟩⟩
      · have quietLog : (l.marked s.house.rate (arrivalFrame s)).notified
            (decide (arrivalFrame s = s.reference.h + 1)) = false := by
          rcases silent with off | still
          · exact (congrArg _ off).trans (Bool.and_false _)
          · rw [Live.notified, still]; simp
        obtain ⟨hg, hn⟩ := log.silent quietLog
        exact ⟨segment.trans hg, latest.trans hn⟩
      · have notified : (l.marked s.house.rate (arrivalFrame s)).notified
            (decide (arrivalFrame s = s.reference.h + 1)) = true := by
          rw [Live.notified, decide_eq_true advances]; exact dr
        refine ⟨segment.trans (log.opened notified followed), fun n0 off next numbers room => ?_⟩
        have others : OthersOffAir i s := fun j hj m hm => off j m hj hm
        obtain ⟨entries, number⟩ := written others notified followed n0 next numbers room
        exact ⟨entries, latest.trans number⟩

end Sys2Proof.Machine
end

section
/-! Holds: what the start and the release of a hold make of a channel, and HOLD, RELEASE HOLD and the hold limit
(R74 to R79). -/

namespace Sys2Proof.Machine

/-! ## Re-resolution outside TAKING (R41, R137) -/

theorem timelineChanged_of_not_taking {l : Live} (h : l.custody.state ≠ .taking) : l.timelineChanged = l := by
  unfold Live.timelineChanged
  split
  · rename_i taking _; exact absurd taking h
  · rfl

theorem custody_reResolve_of_not_taking {l : Live} (p : ChannelParams) (h : Option Nat)
    (taking : l.custody.state ≠ .taking) : (l.reResolve p h).custody = l.custody := by
  unfold Live.reResolve
  rw [timelineChanged_of_not_taking]
  · rfl
  · exact taking

/-! ## Holds started and released (R76, R78) -/

/-- The channel before the re-resolution of a start or a release of a hold: the hold `held`, and the hold end `he` in
the record of event `id` (R76, R78). -/
def Live.moveHold (l : Live) (id : Nat) (he : Option Nat) (held : Option HoldRec) : Live :=
  { l.mapRecords (setHoldEnd id he) with hold := held }

/-- `l'` is `l` with the hold `held`, the hold end `he` in the record of event `id`, and resolved from these; outside
TAKING its custody record is as it was (R76, R78). -/
structure HoldMoved (l : Live) (id : Nat) (he : Option Nat) (held : Option HoldRec) (l' : Live) : Prop where
  hold : l'.hold = held
  events : l'.events = l.events.map fun e => if e.id = id then { e with holdEnd := he } else e
  timeline : l'.timeline = resolve l'.events l.anchor (held.map (·.eventId))
  revisions : l'.mirrorRev = l.mirrorRev ∧ l'.sourceRev = l.sourceRev
  batch : l'.batch = l.batch
  log : l'.segment = l.segment ∧ l'.latestSeq = l.latestSeq
  flags : l'.flags = l.flags
  custody : l'.custody.state = l.custody.state ∧ l'.custody.custodian = l.custody.custodian ∧
    l'.custody.output = l.custody.output
  custodyStands : l.custody.state ≠ .taking → l'.custody = l.custody

theorem holdMoved (l : Live) (id : Nat) (he : Option Nat) (held : Option HoldRec) (p : ChannelParams)
    (h : Option Nat) : HoldMoved l id he held ((l.moveHold id he held).reResolve p h) := by
  obtain ⟨events, -, hold, batch, segment, latest, flags, mirror, source, -, -⟩ :=
    reResolve_rest (l.moveHold id he held) p h
  obtain ⟨cueCounter, takeover, custody⟩ := custody_reResolve (l.moveHold id he held) p h
  exact {
    hold := hold
    events := events
    timeline := by rw [(reResolve_timeline _ p h).1, events]; rfl
    revisions := ⟨mirror, source⟩
    batch := batch
    log := ⟨segment, latest⟩
    flags := flags
    custody := by rw [custody]; exact ⟨rfl, rfl, rfl⟩
    custodyStands := custody_reResolve_of_not_taking (l := l.moveHold id he held) p h }

theorem holdMoved_startHold (l : Live) (p : ChannelParams) (h : Option Nat) (id limit : Nat) :
    HoldMoved l id none (some ⟨id, limit⟩) (l.startHold p h id limit) :=
  holdMoved l id none _ p h

theorem holdMoved_release {l : Live} {hr : HoldRec} (held : l.hold = some hr) (p : ChannelParams) (h : Option Nat)
    (tEnd : Nat) : HoldMoved l hr.eventId (some tEnd) none (l.release p h tEnd) := by
  unfold Live.release
  rw [held]
  exact holdMoved l hr.eventId _ none p h

/-! ## The event after the one released (R78) -/

theorem length_walk (held p : Option Nat) (es : List EventRec) : (walk held p es).length = es.length := by
  induction es generalizing p with
  | nil => rfl
  | cons e es ih =>
    unfold walk
    split
    · simp
    · split <;> simp [ih]

theorem head?_tail_dropWhile_zip (id : Nat) (es : List EventRec) (rs : List Resolved) (h : rs.length = es.length) :
    ((es.zip rs).dropWhile fun c => decide (c.1.id ≠ id)).tail.head?.map Prod.snd =
      rs[(es.findIdx fun e => decide (e.id = id)) + 1]? := by
  induction es generalizing rs with
  | nil => simp [List.length_eq_zero_iff.1 h]
  | cons e es ih =>
    cases rs with
    | nil => cases h
    | cons r rs =>
      have tails : rs.length = es.length := by simpa using h
      by_cases found : e.id = id
      · have shorter : rs.length ≤ es.length := Nat.le_of_eq tails
        rw [List.zip_cons_cons, List.dropWhile_cons_of_neg (by simp [found]), List.tail_cons,
          List.findIdx_cons, decide_eq_true found, ← List.head?_map, List.map_snd_zip shorter]
        simp [List.head?_eq_getElem?]
      · rw [List.zip_cons_cons, List.dropWhile_cons_of_pos (by simp [found]), ih rs tails, List.findIdx_cons,
          decide_eq_false found]
        rfl

/-- The event after an event of a resolved list is the next entry of its timeline (R78). -/
theorem eventAfter_eq {s : State} {l : Live} {anchor held : Option Nat} (h : l.timeline = resolve l.events anchor held)
    (id : Nat) :
    s.eventAfter l id = (l.timeline[(l.events.findIdx fun e => decide (e.id = id)) + 1]?).map fun r =>
      (r.state, r.start.map s.frame) := by
  have lengths : l.timeline.length = l.events.length := by rw [h]; exact length_walk held anchor l.events
  rw [← head?_tail_dropWhile_zip id l.events l.timeline lengths, Option.map_map]
  rfl

@[simp] theorem eventAfter_restartPresence (s : State) (p : Port) (l : Live) (id : Nat) :
    (s.restartPresence p).eventAfter l id = s.eventAfter l id := by
  simp [State.eventAfter, funext (frame_restartPresence s p)]

/-! ## Requests that change one channel and are answered at once (R206, R208) -/

theorem chan_setLive_ne (s : State) {i j : Slot} (l : Live) (h : j ≠ i) : (s.setLive i l).chan j = s.chan j :=
  State.chan_setChan_ne s _ h

/-- `t` is `s` after a request of head `hd` that left slot `i` the channel `l'`, and every other channel, the house, the
log and the event reasons as they were, and was answered. -/
structure ChannelAnswered (s : State) (hd : Head) (i : Slot) (l' : Live) (code : Nat) (st : Status) (body : ReplyBody)
    (t : State) : Prop where
  live : t.live i = some l'
  params : t.params i = s.params i
  others : OthersKept i s t
  system : SystemKept s t
  asRun : t.asRun = s.asRun
  reasons : ReasonsKept s t
  replied : Replied s t hd code st body

theorem channelAnswered (s : State) (hd : Head) (i : Slot) (l' : Live) (code : Nat) (st : Status) (body : ReplyBody) :
    ChannelAnswered s hd i l' code st body
      (((s.restartPresence hd.port).setLive i l').answer hd code st body) where
  live := by simp
  params := by simp
  others j hj := by simp [chan_setLive_ne, hj]
  system := by simp [SystemKept]
  asRun := by simp
  reasons q := by
    by_cases own : q = hd.port
    · subst own; simp [answer_eq_reply, port_reply_self, State.restartPresence]
    · simp [answer_eq_reply, port_reply_ne, own, State.restartPresence]
  replied := by
    refine ⟨?_, fun q own => ?_⟩
    · rw [answer_eq_reply, attention_reply, port_reply_self]
      simp [State.restartPresence]
    · simp [answer_eq_reply, port_reply_ne, own, State.restartPresence]

/-- A channel field names the same channel after the restart of a presence timer. -/
theorem Names.restartPresence {s : State} {p : Port} {ch : Nat} {i : Slot} {l : Live} (h : Names s p ch i l) :
    (s.restartPresence p).address p ch = .ok (i, l) :=
  (address_restartPresence s p p ch).trans h

/-! ## HOLD (R75, R76) -/

theorem exec_hold (hd : Head) (b : Body Nat) (s : State) : exec (.hold hd b) s = execHold hd b s := rfl

/-- The checks of HOLD from the custodian of a channel in DR: not held, and on a LIVE event (R75). -/
theorem checkHold_of_custodian {s : State} {hd : Head} {n : Nat} {i : Slot} {l : Live} (hp : hd.port ≠ .L)
    (names : Names s hd.port n i l) (custodian : l.custody.custodian = some hd.port) (dr : l.custody.state = .dr) :
    (s.restartPresence hd.port).checkHold hd n =
      refuseIf l.hold.isSome .held (l.liveOnAir.elim (.error (.notLive, .empty)) fun c => .ok (i, l, c)) := by
  rw [State.checkHold, fromDr, decide_eq_false hp, refuseIf_false, addressed_of_ok names.restartPresence]
  simp only [custodian, dr, ne_eq, not_true, decide_false, refuseIf_false]
  cases l.liveOnAir <;> rfl

theorem liveOnAir_of_live {l : Live} {c : EventCursor} {src : Nat} (on : l.followed = some (.event c))
    (live : c.content = .live src) : l.liveOnAir = some c := by
  simp [Live.liveOnAir, on, live]

theorem liveOnAir_of_not_live {l : Live} (h : ∀ c src, l.followed = some (.event c) → c.content ≠ .live src) :
    l.liveOnAir = none := by
  unfold Live.liveOnAir
  split
  · rename_i c on
    split
    · rename_i src live; exact absurd live (h c src on)
    · rfl
  · rfl

/-- Settles O51, by the checks of R75 in their order and the start of the hold (R76). -/
theorem holdHoldsTheLiveEvent : Obligations.HoldHoldsTheLiveEvent := by
  unfold Obligations.HoldHoldsTheLiveEvent
  intro hd n i l s ready hp names custodian dr
  rw [exec_hold, execHold, takeRequest_of_ready ready, checkHold_of_custodian hp names custodian dr]
  refine ⟨fun held => ?_, fun free off => ?_, fun c src free on live => ?_⟩
  · simp [held, answer_eq_reply]
  · simp [free, liveOnAir_of_not_live off, answer_eq_reply]
  · have taking : l.custody.state ≠ .taking := by simp [dr]
    have moved := holdMoved_startHold l (s.params i) s.houseFrame c.id s.house.holdLimit
    have answered := channelAnswered s hd i (l.startHold (s.params i) s.houseFrame c.id s.house.holdLimit) 18 .ok
      (.heldNow c.id c.offset s.house.holdLimit (s.frame (s.reference.h + s.house.holdLimit)))
    refine ⟨_, _, ?_, answered.live, moved.hold, moved.events, moved.timeline, moved.revisions.1, moved.revisions.2,
      moved.custodyStands taking, moved.batch, moved.log.1, moved.flags, answered.params, answered.others,
      answered.system, answered.asRun, answered.reasons, answered.replied⟩
    simp [free, liveOnAir_of_live on live]

/-! ## RELEASE HOLD (R77, R78) -/

theorem exec_releaseHold (hd : Head) (b : Body ReleaseFields) (s : State) :
    exec (.releaseHold hd b) s = execReleaseHold hd b s := rfl

/-- RELEASE HOLD from the custodian outside TAKING passes its checks with a time that converts (R77). -/
theorem checkRelease_of_custodian {s : State} {hd : Head} {n : Nat} {x : SchedTime} {c : Nat × Bool} {i : Slot}
    {l : Live} (hp : hd.port ≠ .L) (names : Names s hd.port n i l) (custodian : l.custody.custodian = some hd.port)
    (taking : l.custody.state ≠ .taking) (convert : toFrame s.house.rate x = some c) :
    (s.restartPresence hd.port).checkRelease hd ⟨n, x⟩ = .ok (i, l, c) := by
  rw [State.checkRelease, fromDr, decide_eq_false hp, refuseIf_false,
    addressed_of_ok names.restartPresence, State.house_restartPresence, convert]
  simp [custodian, taking]

theorem okOr_or (moved : Bool) (clamped : Prop) [Decidable clamped] :
    okOr (moved || decide clamped) = if moved = true ∨ clamped then .adjusted else .ok := by
  simp [okOr]

/-- Settles O52: not held, the request has no effect; held, the release at the clamped T_end is answered with the next
entry of the timeline it leaves. -/
theorem releaseHoldEndsTheHold : Obligations.ReleaseHoldEndsTheHold := by
  unfold Obligations.ReleaseHoldEndsTheHold
  intro hd n x c i l s ready hp names custodian taking convert
  rw [exec_releaseHold, execReleaseHold, takeRequest_of_ready ready,
    checkRelease_of_custodian hp names custodian taking convert, conclude_ok]
  refine ⟨fun free => ?_, fun hr held => ?_⟩
  · simp [free, answer_eq_reply]
  · dsimp only
    generalize bound : min (max c.1 (s.reference.h + 1)) (s.reference.h + (s.params i).guard) = tEnd
    have moved := holdMoved_release held (s.params i) s.houseFrame tEnd
    have answered := channelAnswered s hd i (l.release (s.params i) s.houseFrame tEnd) 19
      (if c.2 = true ∨ tEnd ≠ c.1 then .adjusted else .ok)
      (.released hr.eventId (s.frame tEnd) (s.eventAfter (l.release (s.params i) s.houseFrame tEnd) hr.eventId))
    refine ⟨_, _, ?_, answered.live, moved.hold, moved.events, moved.timeline, moved.revisions.1, moved.revisions.2,
      moved.custodyStands taking, moved.batch, moved.log.1, moved.flags, answered.params, answered.others,
      answered.system, answered.asRun, answered.reasons, eventAfter_eq moved.timeline hr.eventId ▸ answered.replied⟩
    simp [held, State.releaseNow, clampEnd, bound, ← okOr_or]

/-! ## The hold limit (R79) -/

theorem exec_holdLimit (n : Nat) (s : State) : exec (.holdLimit n) s = execHoldLimit n s := rfl

theorem exec_holdLimit_of_slot {n : Nat} {i : Slot} (h : slotOf n = some i) (s : State) :
    exec (.holdLimit n) s = .next (s.holdExpiry i) := by
  rw [exec_holdLimit, execHoldLimit, onSlot, h]

/-- The expiry of a hold timer at 0 is the release at H + guard, with HOLD_LIMIT recorded (R79). -/
theorem holdExpiry_of_expired {s : State} {i : Slot} {l : Live} {hr : HoldRec} (hl : s.live i = some l)
    (held : l.hold = some hr) (expired : hr.timer = 0) :
    s.holdExpiry i =
      (s.setLive i (l.release (s.params i) s.houseFrame (s.reference.h + (s.params i).guard))).reportChannel i
        .holdLimit none (.heldEvent hr.eventId) := by
  simp [State.holdExpiry, onLive_of_some hl, held, expired]

/-- A report of a channel adds its class to the flag set of that channel (R194). -/
theorem live_reportChannel_self {s : State} {i : Slot} {l : Live} (hl : s.live i = some l) (c : FaultClass)
    (p : Option Port) (d : FaultDetail) :
    (s.reportChannel i c p d).live i = some { l with flags := addFlag c l.flags } := by
  simp [State.reportChannel, live_report, hl, reportedFlags]

theorem chan_eq_of_live_params {s t : State} {j : Slot} (hl : t.live j = s.live j) (hp : t.params j = s.params j) :
    t.chan j = s.chan j := by
  unfold State.live at hl
  unfold State.params at hp
  cases hs : s.chan j
  cases ht : t.chan j
  simp_all

/-- A channel whose slot is not acted on is as it was, parameters included. -/
theorem SlotAct.othersKept {i : Slot} {s t : State} (h : SlotAct i s t) : OthersKept i s t :=
  fun j hj => chan_eq_of_live_params (h.others j hj) (h.params j)

/-- Acts that move no presence timer leave every port as it was but for its event reasons. -/
theorem Kept.portsKept {s t : State} (h : Kept timersStand s t) : PortsKept s t := h.ports

/-- Settles O24: an expiry is the release at H + guard with a report, and a running timer is left alone. -/
theorem holdLimitReleasesTheHold : Obligations.HoldLimitReleasesTheHold := by
  unfold Obligations.HoldLimitReleasesTheHold
  intro n i s l hr slot hl held
  rw [exec_holdLimit_of_slot slot]
  refine ⟨fun expired => ?_, fun running => ?_⟩
  · have act := slotAct_holdExpiry s i
    have moved := holdMoved_release held (s.params i) s.houseFrame (s.reference.h + (s.params i).guard)
    obtain ⟨state, custodian, output⟩ := moved.custody
    rw [holdExpiry_of_expired hl held expired] at act ⊢
    refine ⟨_, _, rfl, live_reportChannel_self (State.live_setLive_self s i _) _ _ _, moved.hold,
      moved.events, moved.timeline, moved.revisions.1, moved.revisions.2, moved.batch, moved.log.1, moved.log.2,
      state, custodian, output,
      (mem_addFlag _ _ _).2 (.inl rfl), act.params i, act.othersKept, ?_, act.portsKept, ?_⟩
    · simp [SystemKept, State.reportChannel]
    · simp [State.reportChannel]
  · have kept : s.holdExpiry i = s := holdExpiry_of_running fun m hm r hold => by
      rw [hl] at hm; cases hm
      rw [held] at hold; cases hold
      exact running
    rw [kept]

end Sys2Proof.Machine
end

section
/-! Takeover cues: CUE READY (R138, R140), and the switch at the switch frame of a READY cue, with its close, record and
open in the log (R143, R144, R167, R169). -/

namespace Sys2Proof.Machine

/-! ## What acts on one channel keep of the system -/

theorem SystemKept.refl (s : State) : SystemKept s s := ⟨rfl, rfl, rfl, rfl⟩

theorem SystemKept.trans {s t u : State} (h : SystemKept s t) (k : SystemKept t u) : SystemKept s u := by
  obtain ⟨reference, house, store, pending⟩ := h
  obtain ⟨reference', house', store', pending'⟩ := k
  exact ⟨reference'.trans reference, house'.trans house, store'.trans store, pending'.trans pending⟩

theorem systemKept_setLive (s : State) (i : Slot) (l : Live) : SystemKept s (s.setLive i l) := ⟨rfl, rfl, rfl, rfl⟩

theorem systemKept_setCustody (s : State) (i : Slot) (c : Custody) : SystemKept s (s.setCustody i c) :=
  onLive_induct (P := SystemKept s) (fun _ => .refl s) fun _ _ => systemKept_setLive s i _

theorem systemKept_raiseCustodyChanged (s : State) : SystemKept s s.raiseCustodyChanged := by
  simp [SystemKept]

theorem systemKept_reportChannel (s : State) (i : Slot) (c : FaultClass) (p : Option Port) (d : FaultDetail) :
    SystemKept s (s.reportChannel i c p d) := by
  simp [SystemKept, State.reportChannel]

theorem systemKept_switchRecord (s : State) (i : Slot) (a b : Output) (r : SwitchReason) (cue : Option Nat)
    (frame : Nat) (c : Cursor) : SystemKept s (s.switchRecord i a b r cue frame c) :=
  (logActs_switchRecord s i a b r cue frame c).system

/-! ## CUE READY (R138, R140) -/

theorem exec_cueReady (hd : Head) (b : Body ReadyFields) (s : State) : exec (.cueReady hd b) s = execCueReady hd b s := rfl

theorem takingChannel_of_taking {α : Type} {l : Live} {k : Takeover} (taking : l.custody.state = .taking)
    (hk : l.custody.takeover = some k) (f : Takeover → Verdict α) : takingChannel l f = f k := by
  simp [takingChannel, taking, hk]

/-- The checks of CUE READY from the target of a TAKING channel: the cue's number, then COMPUTING (R140). -/
theorem checkCueReady_of_target {s : State} {hd : Head} {n number : Nat} {i : Slot} {l : Live} {k : Takeover}
    (hp : hd.port ≠ .L) (names : Names s hd.port n i l) (taking : l.custody.state = .taking)
    (hk : l.custody.takeover = some k) (target : drPort k.target = hd.port) :
    (s.restartPresence hd.port).checkCueReady hd ⟨n, number⟩ =
      refuseWith (decide (number ≠ k.cue.number)) .staleCue (.currentCue k.cue.number)
        (refuseIf (decide (k.cue.state = .computing)) .busy (.ok (i, l, k))) := by
  rw [State.checkCueReady, fromDr, decide_eq_false hp, refuseIf_false, addressed_of_ok names.restartPresence,
    takingChannel_of_taking taking hk, decide_eq_false (not_not_intro target), refuseIf_false]

theorem cuePending_attention (s : State) (p : Port) : (s.attention p).cuePending = s.cuePending p := rfl

theorem mem_inService {s : State} {i : Slot} {l : Live} : (i, l) ∈ s.inService ↔ s.live i = some l := by
  simp [State.inService, slots]

/-- CUE_PENDING is off at a port exactly where every cue that waits for it is READY (R138). -/
theorem cuePending_eq_false_iff {s : State} {p : Port} :
    s.cuePending p = false ↔
      ∀ j m x, s.live j = some m → m.custody.takeover = some x → drPort x.target = p → x.cue.state = .ready := by
  rw [State.cuePending, List.any_eq_false]
  constructor
  · intro off j m x hm hx target
    have unready := off (j, m) (mem_inService.2 hm)
    simpa [hx, target] using unready
  · rintro off ⟨j, m⟩ hm
    cases hx : m.custody.takeover with
    | none => simp
    | some x => simpa using off j m x (mem_inService.1 hm) hx

/-- Settles O48, by the checks of R140 in their order and the channels whose cue waits for the port. -/
theorem cueReadyReadiesTheCue : Obligations.CueReadyReadiesTheCue := by
  unfold Obligations.CueReadyReadiesTheCue
  intro hd n number i l k s ready hp names taking hk target
  rw [exec_cueReady, execCueReady, takeRequest_of_ready ready, checkCueReady_of_target hp names taking hk target]
  refine ⟨fun stale => ?_, fun current computing => ?_, fun current computed => ?_⟩
  · simp [stale, answer_eq_reply]
  · simp [current, computing, answer_eq_reply]
  · refine ⟨_, rfl, ?_, fun others => ?_⟩
    · simp [current, computed, answer_eq_reply, Live.setTakeover]
    · have off : State.cuePending ((s.restartPresence hd.port).setLive i
          (l.setTakeover (some { k with cue := { k.cue with state := .ready } }))) hd.port = false := by
        refine cuePending_eq_false_iff.2 fun j m x hm hx waits => ?_
        rw [State.live_setLive] at hm
        split at hm
        · cases hm; cases hx; rfl
        · rename_i other
          exact others j m x other (by simpa using hm) hx waits
      simpa [current, computed, answer_eq_reply, cuePending_attention] using off

/-! ## Switch records (R167, R169) -/

theorem setSegment_of_segment {s : State} {i : Slot} {l : Live} (hl : s.live i = some l) :
    s.setSegment i l.segment = s := by
  rw [setSegment_eq hl]
  exact State.setLive_of_live hl

/-- A close is the end of the segment and the writing of its AIRED entry, where it aired a frame (R167). -/
theorem closeSegment_eq {s : State} {i : Slot} {l : Live} (hl : s.live i = some l) (frame : Nat) :
    s.closeSegment i frame = (s.setSegment i none).writeEntries i frame (airedEntries frame l.segment) := by
  rw [State.closeSegment, onLive_of_some hl]
  cases hg : l.segment with
  | none =>
    rw [← hg, setSegment_of_segment hl, hg]; rfl
  | some g =>
    dsimp only [airedEntries]
    split <;> rfl

/-- The segment of a channel after the close that a switch between two outputs begins with: none where the switch
leaves a DR output. -/
def Live.segmentLeft (l : Live) (fromO toO : Output) : Option Segment :=
  if isDrOutput fromO = true ∧ fromO ≠ toO then none else l.segment

/-- The entries of a switch record, in their order: the AIRED entry of that close, and the SWITCH entry (R169). -/
def Live.switchEntries (l : Live) (fromO toO : Output) (reason : SwitchReason) (cue : Option Nat) (frame : Nat) :
    List EntryBody :=
  (if isDrOutput fromO = true ∧ fromO ≠ toO then airedEntries frame l.segment else []) ++
    [.switch fromO toO reason cue]

/-- The segment that a switch record leaves: that of the event on air, where the output changes to a DR output. -/
def Live.segmentSwitched (l : Live) (fromO toO : Output) (frame : Nat) (cursor : Cursor) : Option Segment :=
  if isDrOutput toO = true ∧ fromO ≠ toO then
    match cursor with
    | .event c => some ⟨c.id, frame, c.lateness + c.offset, toO⟩
    | _ => l.segmentLeft fromO toO
  else l.segmentLeft fromO toO

/-- A switch record writes its entries after the close, and then opens its segment (R169). -/
theorem switchRecord_eq {s : State} {i : Slot} {l : Live} (hl : s.live i = some l) (a b : Output) (r : SwitchReason)
    (cue : Option Nat) (frame : Nat) (c : Cursor) :
    s.switchRecord i a b r cue frame c =
      ((s.setSegment i (l.segmentLeft a b)).writeEntries i frame (l.switchEntries a b r cue frame)).setSegment i
        (l.segmentSwitched a b frame c) := by
  have recorded : (if (isDrOutput a && decide (a ≠ b)) = true then s.closeSegment i frame else s).writeEntry i frame
      (.switch a b r cue) =
      (s.setSegment i (l.segmentLeft a b)).writeEntries i frame (l.switchEntries a b r cue frame) := by
    rw [Live.switchEntries, writeEntries_append, Live.segmentLeft]
    simp only [Bool.and_eq_true, decide_eq_true_eq]
    split
    · rw [closeSegment_eq hl]; rfl
    · rw [setSegment_of_segment hl]; rfl
  obtain ⟨n, live⟩ := live_writeEntries_of_live i frame (l.switchEntries a b r cue frame)
    (show (s.setSegment i (l.segmentLeft a b)).live i = some { l with segment := l.segmentLeft a b } by
      rw [setSegment_eq hl, State.live_setLive_self])
  have left := setSegment_of_segment live
  unfold State.switchRecord Live.segmentSwitched
  dsimp only
  rw [recorded]
  simp only [Bool.and_eq_true, decide_eq_true_eq]
  split
  · cases c with
    | event e => rfl
    | _ => exact left.symm
  · exact left.symm

theorem length_airedEntries_le (frame : Nat) (g : Option Segment) : (airedEntries frame g).length ≤ 1 := by
  unfold airedEntries
  split
  · split <;> simp
  · simp

theorem length_switchEntries_le (l : Live) (a b : Output) (r : SwitchReason) (cue : Option Nat) (frame : Nat) :
    (l.switchEntries a b r cue frame).length ≤ 2 := by
  have aired := length_airedEntries_le frame l.segment
  unfold Live.switchEntries
  split <;> simp
  omega

/-- The channel and the log after a switch record: the segment it leaves, and its entries as the newest. -/
theorem switchRecord_written {s : State} {i : Slot} {l : Live} (hl : s.live i = some l) (a b : Output)
    (r : SwitchReason) (cue : Option Nat) (frame : Nat) (c : Cursor) :
    ∃ n, (s.switchRecord i a b r cue frame c).live i =
        some { l with segment := l.segmentSwitched a b frame c, latestSeq := n } ∧
      ∀ m, s.asRun.nextSeq = some m → m + (l.switchEntries a b r cue frame).length ≤ Config.lastSequence →
        Written i frame m (l.switchEntries a b r cue frame) s (s.switchRecord i a b r cue frame c) ∧
        n + 1 = m + (l.switchEntries a b r cue frame).length := by
  have closed : (s.setSegment i (l.segmentLeft a b)).live i = some { l with segment := l.segmentLeft a b } := by
    rw [setSegment_eq hl, State.live_setLive_self]
  have log : (s.setSegment i (l.segmentLeft a b)).asRun = s.asRun := by rw [setSegment_eq hl]; rfl
  obtain ⟨n, live⟩ := live_writeEntries_of_live i frame (l.switchEntries a b r cue frame) closed
  have short := length_switchEntries_le l a b r cue frame
  have nonempty : l.switchEntries a b r cue frame ≠ [] := by simp [Live.switchEntries]
  rw [switchRecord_eq hl, setSegment_eq live]
  refine ⟨n, State.live_setLive_self _ _ _, fun m hm numbers => ?_⟩
  obtain ⟨next, old, ring⟩ := asRun_writeEntries i frame (l.switchEntries a b r cue frame) (done := [])
    (List.append_nil _).symm (by rw [log]; exact hm) numbers
    (by rw [List.length_nil, Nat.zero_add]; exact Nat.le_trans short (by decide))
  have number := live_writeEntries i frame (l.switchEntries a b r cue frame) closed (by rw [log]; exact hm) numbers
  rw [live] at number
  have latest := congrArg Live.latestSeq (Option.some.inj number)
  have same : numberedEntry (s.setSegment i (l.segmentLeft a b)) i frame = numberedEntry s i frame := by
    obtain ⟨⟨-, house, -, -⟩, params, -⟩ := logActs_setSegment s i (l.segmentLeft a b)
    exact numberedEntry_congr params house i frame
  refine ⟨⟨next, old, ?_⟩, ?_⟩
  · rw [State.asRun_setLive, ring, same]; rfl
  · have positive := List.length_pos_iff.2 nonempty
    simp only [if_neg nonempty] at latest
    omega

/-! ## The switch frame of a READY cue (R143, R144) -/

theorem exec_switchFrameReached {n : Nat} {i : Slot} (h : slotOf n = some i) (s : State) :
    exec (.switchFrameReached n) s = .next (s.takeSwitchFrame i) := by
  show execSwitchFrameReached n s = _
  rw [execSwitchFrameReached, onSlot, h]

/-- The decision at a switch frame reached is the switch where the cue is READY (R142). -/
theorem takeSwitchFrame_of_ready {s : State} {i : Slot} {l : Live} {k : Takeover} (hl : s.live i = some l)
    (taking : l.custody.state = .taking) (hk : l.custody.takeover = some k) (due : l.custody.switchDue = true)
    (ready : k.cue.state = .ready) : s.takeSwitchFrame i = s.switchTo i l k := by
  rw [State.takeSwitchFrame, onLive_of_some hl]
  simp [taking, hk, due, ready]

/-- It is a miss where the cue is not (R142). -/
theorem takeSwitchFrame_of_unready {s : State} {i : Slot} {l : Live} {k : Takeover} (hl : s.live i = some l)
    (taking : l.custody.state = .taking) (hk : l.custody.takeover = some k) (due : l.custody.switchDue = true)
    (unready : k.cue.state ≠ .ready) : ∃ cause, s.takeSwitchFrame i = s.missCue i k cause := by
  rw [State.takeSwitchFrame, onLive_of_some hl]
  simp only [taking, hk, due, if_true]
  cases hc : k.cue.state with
  | ready => exact absurd hc unready
  | issued => exact ⟨.notReady, rfl⟩
  | computing => exact ⟨.computing, rfl⟩

theorem takeSwitchFrame_of_undue {s : State} {i : Slot} {l : Live} {k : Takeover} (hl : s.live i = some l)
    (taking : l.custody.state = .taking) (hk : l.custody.takeover = some k) (undue : l.custody.switchDue = false) :
    s.takeSwitchFrame i = s := by
  rw [State.takeSwitchFrame, onLive_of_some hl]
  simp [taking, hk, undue]

/-- The custody record of a channel after the switch of a takeover (R143, R144). -/
def Custody.switched (c : Custody) (k : Takeover) : Custody :=
  { c with
    state := .dr, custodian := some (drPort k.target), output := drOutput k.target, a := false, takeover := none
    switchDue := false }

@[simp] theorem isDrOutput_drOutput (d : DrPort) : isDrOutput (drOutput d) = true := by
  cases d <;> rfl

theorem segmentSwitched_toDr (l : Live) (a : Output) (d : DrPort) (frame : Nat) (c : Cursor) :
    l.segmentSwitched a (drOutput d) frame c = if a = drOutput d then l.segment else match c with
      | .event e => some ⟨e.id, frame, e.lateness + e.offset, drOutput d⟩
      | _ => if isDrOutput a then none else l.segment := by
  unfold Live.segmentSwitched Live.segmentLeft
  by_cases same : a = drOutput d
  · simp [same]
  · cases c <;> simp [same]

/-- The switch at one channel: its custody, its segment, and the entries of its switch record as the newest. -/
theorem switchTo_written {s : State} {i : Slot} {l : Live} (hl : s.live i = some l) (k : Takeover) :
    let bodies := l.switchEntries l.custody.output (drOutput k.target) (originReason k.origin) (some k.cue.number)
      k.cue.switchFrame
    ∃ n, (s.switchTo i l k).live i = some { l with
          custody := l.custody.switched k, latestSeq := n
          segment := l.segmentSwitched l.custody.output (drOutput k.target) k.cue.switchFrame
            (l.cursor k.cue.switchFrame) } ∧
      ∀ m, s.asRun.nextSeq = some m → m + bodies.length ≤ Config.lastSequence →
        Written i k.cue.switchFrame m bodies s (s.switchTo i l k) ∧ n + 1 = m + bodies.length := by
  dsimp only
  have moved : s.setCustody i (l.custody.switched k) = s.setLive i { l with custody := l.custody.switched k } := by
    rw [State.setCustody, onLive_of_some hl]
  have live := State.live_setLive_self s i { l with custody := l.custody.switched k }
  obtain ⟨n, recorded, written⟩ := switchRecord_written live l.custody.output (drOutput k.target)
    (originReason k.origin) (some k.cue.number) k.cue.switchFrame (l.cursor k.cue.switchFrame)
  have eq : s.switchTo i l k = ((s.setLive i { l with custody := l.custody.switched k }).switchRecord i l.custody.output
      (drOutput k.target) (originReason k.origin) (some k.cue.number) k.cue.switchFrame
      (l.cursor k.cue.switchFrame)).raiseCustodyChanged := by
    rw [← moved]; rfl
  refine ⟨n, by rw [eq, State.live_raiseCustodyChanged, recorded]; rfl, fun m hm numbers => ?_⟩
  obtain ⟨⟨next, ring⟩, number⟩ := written m hm numbers
  have service : (s.setLive i { l with custody := l.custody.switched k }).service i = s.service i := by
    simp [State.service]
  refine ⟨⟨?_, ?_⟩, number⟩
  · rw [eq, State.asRun_raiseCustodyChanged]; exact next
  · rw [service] at ring
    rw [eq, State.asRun_raiseCustodyChanged]; exact ring

theorem systemKept_switchTo (s : State) (i : Slot) (l : Live) (k : Takeover) : SystemKept s (s.switchTo i l k) :=
  ((systemKept_setCustody s i _).trans (systemKept_switchRecord _ i _ _ _ _ _ _)).trans
    (systemKept_raiseCustodyChanged _)

theorem custodyChangeRaised_raiseCustodyChanged (s : State) : CustodyChangeRaised s.raiseCustodyChanged :=
  fun q => by rw [port_raiseCustodyChanged]

/-- Settles O30: at the switch frame the switch with its switch record, and before it nothing. -/
theorem readyCueSwitchesToItsTarget : Obligations.ReadyCueSwitchesToItsTarget := by
  unfold Obligations.ReadyCueSwitchesToItsTarget
  intro n i s l k slot hl taking hk ready
  rw [exec_switchFrameReached slot]
  refine ⟨fun due => ?_, fun undue => by rw [takeSwitchFrame_of_undue hl taking hk undue]⟩
  have act := slotAct_switchTo hl k
  obtain ⟨latest, live, written⟩ := switchTo_written hl k
  rw [takeSwitchFrame_of_ready hl taking hk due ready]
  refine ⟨_, _, rfl, live, rfl, rfl, rfl, rfl, rfl, rfl, rfl, rfl, rfl, rfl, rfl,
    custodyChangeRaised_raiseCustodyChanged _, act.portsKept, act.othersKept, systemKept_switchTo s i l k,
    act.params i, ?_, written⟩
  exact segmentSwitched_toDr l l.custody.output k.target _ _

end Sys2Proof.Machine
end

section
/-! Misses: a cue not READY at its switch frame, the fall to SAFE, the retry and the end of the takeover (R144 to R146,
R131, R132). -/

namespace Sys2Proof.Machine

/-! ## One recorded miss (R145) -/

/-- A miss of the takeover `k` makes the channel fall to SAFE: its output is MAIN, the takeover is from MAIN, and the
main site is lost (R145). -/
def Live.fallsToSafe (l : Live) (k : Takeover) : Prop :=
  l.custody.output = .main ∧ k.prevOutput = .main ∧ l.custody.m = true

theorem mem_addFlag_self (c : FaultClass) (fs : List FaultClass) : c ∈ addFlag c fs :=
  (mem_addFlag c c fs).2 (.inl rfl)

theorem reportChannel_missed {s : State} {i : Slot} {l : Live} (hl : s.live i = some l) (p : Option Port)
    (d : FaultDetail) :
    (s.reportChannel i .cueMissed p d).live i = some { l with flags := addFlag .cueMissed l.flags } :=
  live_reportChannel_self hl .cueMissed p d

theorem getLast?_pushEntry (ring : List LogEntry) (e : LogEntry) : (pushEntry ring e).getLast? = some e := by
  unfold pushEntry
  split <;> simp

/-- `u` holds at slot `i` the channel `m`, that of `s` after at least one miss of the takeover `k`: CUE_MISSED is
recorded, the fall to SAFE is done once with its entry where R145 asks for it, and what no miss touches is as it was. -/
structure MissRecorded (i : Slot) (s : State) (l : Live) (k : Takeover) (u : State) (m : Live) : Prop where
  live : u.live i = some m
  act : SlotAct i s u
  system : SystemKept s u
  rest : m = { l with flags := m.flags, latestSeq := m.latestSeq, custody := m.custody }
  conditionM : m.custody.m = l.custody.m
  missed : FaultClass.cueMissed ∈ m.flags
  fallen : l.fallsToSafe k → m.custody.output = .safe ∧ m.custody.custodian = none ∧ FaultClass.safeEntry ∈ m.flags ∧
    ∀ n, s.asRun.nextSeq = some n → m.latestSeq = n ∧ u.asRun.ring.getLast? =
      some ⟨n, i.val, s.service i, s.reference.h, s.house.rate, .switch .main .safe .cueMiss (some k.cue.number)⟩
  unmoved : ¬l.fallsToSafe k → m.custody.output = l.custody.output ∧ m.custody.custodian = l.custody.custodian ∧
    u.asRun = s.asRun ∧ m.latestSeq = l.latestSeq

/-- The takeover then stands as it was, but for its attempt. -/
structure MissPending (i : Slot) (s : State) (l : Live) (k : Takeover) (u : State) (m : Live) : Prop
    extends MissRecorded i s l k u m where
  takeover : ∃ a, m.custody.takeover = some { k with attempt := a }
  state : m.custody.state = l.custody.state
  counter : m.custody.cueCounter = l.custody.cueCounter

/-- A miss that does not fall to SAFE is its report alone. -/
theorem recordMiss_of_not_falls {s : State} {i : Slot} {l : Live} {k : Takeover} (hl : s.live i = some l)
    (hk : l.custody.takeover = some k) (stays : ¬l.fallsToSafe k) (p : Option Port) (c : MissCause) :
    s.recordMiss i p c = s.reportChannel i .cueMissed p (.miss k.cue.number k.attempt c) := by
  rw [State.recordMiss, onLive_of_some hl]
  simp only [hk]
  split
  · rename_i falls
    simp only [Bool.and_eq_true, decide_eq_true_eq] at falls
    obtain ⟨⟨output, prev⟩, lost⟩ := falls
    exact absurd ⟨output, prev, lost⟩ stays
  · rfl

/-- A switch between outputs of which neither is a DR output writes its entry alone (R169). -/
theorem switchRecord_off_dr (s : State) (i : Slot) {a b : Output} (ha : isDrOutput a = false)
    (hb : isDrOutput b = false) (r : SwitchReason) (cue : Option Nat) (frame : Nat) (c : Cursor) :
    s.switchRecord i a b r cue frame c = s.writeEntry i frame (.switch a b r cue) := by
  simp [State.switchRecord, ha, hb]

/-- The channel that a fall to SAFE leaves, but for its log and its flags (R145). -/
def Live.inSafe (l : Live) : Live := { l with custody := { l.custody with output := .safe, custodian := none } }

/-- The fall to SAFE at the miss of the cue `cue`: the output, its SWITCH entry, SAFE_ENTRY and CUSTODY_CHANGED (R145).
-/
def State.fallToSafe (s : State) (i : Slot) (l : Live) (cue : Nat) (p : Option Port) : State :=
  (((s.setLive i l.inSafe).writeEntry i s.reference.h (.switch .main .safe .cueMiss (some cue))).reportChannel i
    .safeEntry p (.cueNumber cue)).raiseCustodyChanged

/-- A miss that falls to SAFE is its report and the fall. -/
theorem recordMiss_of_falls {s : State} {i : Slot} {l : Live} {k : Takeover} (hl : s.live i = some l)
    (hk : l.custody.takeover = some k) (falls : l.fallsToSafe k) (p : Option Port) (c : MissCause) :
    s.recordMiss i p c = (s.reportChannel i .cueMissed p (.miss k.cue.number k.attempt c)).fallToSafe i
      { l with flags := addFlag .cueMissed l.flags } k.cue.number p := by
  obtain ⟨output, prev, lost⟩ := falls
  have missed := reportChannel_missed hl p (.miss k.cue.number k.attempt c)
  have reference : (s.reportChannel i .cueMissed p (.miss k.cue.number k.attempt c)).reference = s.reference :=
    State.reference_report s _
  rw [State.recordMiss, onLive_of_some hl]
  simp only [hk, output, prev, lost, and_self, decide_true, Bool.and_self, if_true]
  rw [onLive_of_some missed, State.setCustody, onLive_of_some missed, switchRecord_off_dr _ i rfl rfl, ← reference]
  rfl

theorem systemKept_fallToSafe (s : State) (i : Slot) (l : Live) (cue : Nat) (p : Option Port) :
    SystemKept s (s.fallToSafe i l cue p) :=
  (((systemKept_setLive s i _).trans (logActs_writeEntry _ i _ _).system).trans
    (systemKept_reportChannel _ i _ _ _)).trans (systemKept_raiseCustodyChanged _)

/-- The channel after a fall to SAFE. -/
theorem live_fallToSafe (s : State) (i : Slot) (l : Live) (cue : Nat) (p : Option Port) :
    (s.fallToSafe i l cue p).live i = some { l.inSafe with
      latestSeq := s.asRun.nextSeq.getD l.latestSeq, flags := addFlag .safeEntry l.flags } := by
  have written : ((s.setLive i l.inSafe).writeEntry i s.reference.h (.switch .main .safe .cueMiss (some cue))).live i =
      some { l.inSafe with latestSeq := s.asRun.nextSeq.getD l.latestSeq } := by
    rw [live_writeEntry]
    cases hn : s.asRun.nextSeq with
    | none => simp [hn, Live.inSafe]
    | some n => simp [hn]
  rw [State.fallToSafe, State.live_raiseCustodyChanged, live_reportChannel_self written]
  rfl

/-- The newest entry after a fall to SAFE. -/
theorem newest_fallToSafe {s : State} {n : Nat} (hn : s.asRun.nextSeq = some n) (i : Slot) (l : Live) (cue : Nat)
    (p : Option Port) :
    (s.fallToSafe i l cue p).asRun.ring.getLast? =
      some ⟨n, i.val, s.service i, s.reference.h, s.house.rate, .switch .main .safe .cueMiss (some cue)⟩ := by
  have service : (s.setLive i l.inSafe).service i = s.service i := by simp [State.service]
  rw [State.fallToSafe, State.asRun_raiseCustodyChanged, State.reportChannel, State.asRun_report, asRun_writeEntry,
    State.asRun_setLive, hn, ← service]
  exact getLast?_pushEntry _ _

/-- The first recorded miss of a takeover. -/
theorem missPending_first {s : State} {i : Slot} {l : Live} {k : Takeover} (hl : s.live i = some l)
    (hk : l.custody.takeover = some k) (p : Option Port) (c : MissCause) :
    ∃ m, MissPending i s l k (s.recordMiss i p c) m ∧ m.custody.takeover = some k := by
  have act := slotAct_recordMiss s i p c
  have flagged : FaultClass.cueMissed ∈ addFlag .cueMissed l.flags := mem_addFlag_self _ _
  by_cases falls : l.fallsToSafe k
  · rw [recordMiss_of_falls hl hk falls] at act ⊢
    refine ⟨_, { live := live_fallToSafe _ i _ _ p, act := act, rest := rfl, conditionM := rfl, state := rfl
                 system := (systemKept_reportChannel s i _ _ _).trans (systemKept_fallToSafe _ i _ _ p)
                 missed := (mem_addFlag .safeEntry _ _).2 (.inr flagged), fallen := fun _ => ?_
                 unmoved := fun stays => absurd falls stays, takeover := ⟨k.attempt, hk⟩, counter := rfl }, hk⟩
    refine ⟨rfl, rfl, mem_addFlag_self _ _, fun n hn => ?_⟩
    have next : (s.reportChannel i .cueMissed p (.miss k.cue.number k.attempt c)).asRun.nextSeq = some n := by
      rw [State.reportChannel, State.asRun_report, hn]
    rw [newest_fallToSafe next, next]
    simp [State.reportChannel, State.service]
  · rw [recordMiss_of_not_falls hl hk falls] at act ⊢
    exact ⟨_, { live := reportChannel_missed hl p _, act := act, rest := rfl, conditionM := rfl, state := rfl
                system := systemKept_reportChannel s i _ _ _, missed := flagged
                fallen := fun h => absurd h falls
                unmoved := fun _ => ⟨rfl, rfl, State.asRun_report s _, rfl⟩
                takeover := ⟨k.attempt, hk⟩, counter := rfl }, hk⟩

/-- A further miss records no more than the first: the channel falls to SAFE at most once. -/
theorem MissPending.again {i : Slot} {s : State} {l : Live} {k : Takeover} {u : State} {m : Live}
    (h : MissPending i s l k u m) (p : Option Port) (c : MissCause) :
    ∃ m', MissPending i s l k (u.recordMiss i p c) m' := by
  obtain ⟨a, hk⟩ := h.takeover
  have stays : ¬m.fallsToSafe { k with attempt := a } := by
    rintro ⟨output, prev, lost⟩
    by_cases falls : l.fallsToSafe k
    · rw [(h.fallen falls).1] at output; cases output
    · exact falls ⟨(h.unmoved falls).1 ▸ output, prev, h.conditionM ▸ lost⟩
  rw [recordMiss_of_not_falls h.live hk stays]
  have log : (u.reportChannel i .cueMissed p (.miss k.cue.number a c)).asRun = u.asRun := State.asRun_report u _
  refine ⟨_, { live := reportChannel_missed h.live _ _, act := h.act.reported (by decide) _ _
               system := h.system.trans (systemKept_reportChannel u i _ _ _)
               rest := by rw [h.rest], conditionM := h.conditionM, missed := mem_addFlag_self _ _
               fallen := fun falls => ?_, unmoved := fun kept => by rw [log]; exact h.unmoved kept
               takeover := h.takeover, state := h.state, counter := h.counter }⟩
  obtain ⟨output, custodian, entry, newest⟩ := h.fallen falls
  exact ⟨output, custodian, (mem_addFlag _ _ _).2 (.inr entry), by rw [log]; exact newest⟩

/-- What ends a miss or follows it in the custody record of the channel leaves the record of the miss. -/
theorem MissRecorded.setLive {i : Slot} {s : State} {l : Live} {k : Takeover} {u : State} {m : Live}
    (h : MissRecorded i s l k u m) {c : Custody}
    (hc : c.output = m.custody.output ∧ c.custodian = m.custody.custodian ∧ c.m = m.custody.m ∧
      c.mainRev = m.custody.mainRev) :
    MissRecorded i s l k (u.setLive i { m with custody := c }) { m with custody := c } := by
  obtain ⟨output, custodian, conditionM, mainRev⟩ := hc
  exact {
    live := State.live_setLive_self u i _
    act := h.act.trans (.setLive h.live (by simp [Live.revisions, mainRev]))
    system := h.system.trans (systemKept_setLive u i _)
    rest := by rw [h.rest]
    conditionM := conditionM.trans h.conditionM
    missed := h.missed
    fallen := fun falls => by rw [output, custodian]; exact h.fallen falls
    unmoved := fun kept => by rw [output, custodian]; exact h.unmoved kept }

theorem MissRecorded.raised {i : Slot} {s : State} {l : Live} {k : Takeover} {u : State} {m : Live}
    (h : MissRecorded i s l k u m) : MissRecorded i s l k u.raiseCustodyChanged m where
  live := by rw [State.live_raiseCustodyChanged, h.live]
  act := h.act.raised
  system := h.system.trans (systemKept_raiseCustodyChanged u)
  rest := h.rest
  conditionM := h.conditionM
  missed := h.missed
  fallen := by rw [State.asRun_raiseCustodyChanged]; exact h.fallen
  unmoved := by rw [State.asRun_raiseCustodyChanged]; exact h.unmoved

/-! ## The end of a takeover and its retries (R131, R132, R145, R146) -/

/-- The channel of a takeover that has ended without a switch (R146). -/
def Live.takeoverEnded (l : Live) (k : Takeover) : Live :=
  { l with custody := { l.custody with
      state := if l.custody.output = .safe then .safe else k.prevState, takeover := none, switchDue := false } }

theorem endTakeover_eq {s : State} {i : Slot} {l : Live} {k : Takeover} (hl : s.live i = some l)
    (hk : l.custody.takeover = some k) : s.endTakeover i = (s.setLive i (l.takeoverEnded k)).raiseCustodyChanged := by
  rw [State.endTakeover, onLive_of_some hl]
  simp only [hk]
  rw [State.setCustody, onLive_of_some hl]
  rfl

/-- Presence decides the target of a retry: acts on one channel leave it (R145). -/
theorem SlotAct.retryTarget {i : Slot} {s u : State} (h : SlotAct i s u) (k : Takeover) (a : Nat) :
    u.retryTarget { k with attempt := a } = s.retryTarget k := by
  have present : ∀ p, u.present p = s.present p := fun p => by rw [State.present, h.presence p]; rfl
  simp [State.retryTarget, present]

/-- The channel after a retry of the takeover `k` toward `d`: the next attempt, with a new cue at H + lead (R131,
R145). -/
def State.retryToward (u : State) (i : Slot) (m : Live) (k : Takeover) (d : DrPort) : Live :=
  m.makeCue { k with attempt := k.attempt + 1, target := d } (u.reference.h + (u.params i).cueLead)

/-- A miss before the last attempt retries where it has a target (R145). -/
theorem miss_retried {i : Slot} {s u : State} {p : Option Port} {c : MissCause} {m : Live} {k : Takeover} {d : DrPort}
    (left : Nat) (hu : s.recordMiss i p c = u) (hm : u.live i = some m) (hk : m.custody.takeover = some k)
    (target : u.retryTarget k = some d) :
    State.miss i (left + 1) s p c = u.setLive i (u.retryToward i m k d) := by
  subst hu
  simp [State.miss, State.retryToward, hm, hk, target]

/-- One with no target is missed again at once (R145). -/
theorem miss_targetless {i : Slot} {s u : State} {p : Option Port} {c : MissCause} {m : Live} {k : Takeover}
    (left : Nat) (hu : s.recordMiss i p c = u) (hm : u.live i = some m) (hk : m.custody.takeover = some k)
    (targetless : u.retryTarget k = none) :
    State.miss i (left + 1) s p c =
      State.miss i left (u.setLive i (m.setTakeover (some { k with attempt := k.attempt + 1 }))) none .noTarget := by
  subst hu
  simp [State.miss, hm, hk, targetless]

/-- The takeover `k` has ended after its misses, without a switch: no cue was made since, and the channel stands at SAFE
where its output does, and else in its previous state (R146). -/
structure MissEnded (i : Slot) (s : State) (l : Live) (k : Takeover) (u : State) (m : Live) : Prop
    extends MissRecorded i s l k u m where
  takeover : m.custody.takeover = none
  counter : m.custody.cueCounter = l.custody.cueCounter
  state : m.custody.state = if m.custody.output = .safe then .safe else k.prevState

theorem MissPending.ended {i : Slot} {s : State} {l : Live} {k : Takeover} {u : State} {m : Live}
    (h : MissPending i s l k u m) : ∃ m', MissEnded i s l k (u.endTakeover i) m' := by
  obtain ⟨a, hk⟩ := h.takeover
  rw [endTakeover_eq h.live hk]
  exact ⟨_, { (h.toMissRecorded.setLive (c := (m.takeoverEnded _).custody) ⟨rfl, rfl, rfl, rfl⟩).raised with
    takeover := rfl, counter := h.counter, state := rfl }⟩

/-- The next attempt of a takeover under way, counted. -/
theorem MissPending.nextAttempt {i : Slot} {s : State} {l : Live} {k : Takeover} {u : State} {m : Live}
    (h : MissPending i s l k u m) (a : Nat) :
    MissPending i s l k (u.setLive i (m.setTakeover (some { k with attempt := a })))
      (m.setTakeover (some { k with attempt := a })) :=
  { h.toMissRecorded.setLive (c := (m.setTakeover (some { k with attempt := a })).custody) ⟨rfl, rfl, rfl, rfl⟩ with
    takeover := ⟨a, rfl⟩, state := h.state, counter := h.counter }

/-- With no port to retry toward, every attempt left is missed at once, and the takeover ends. -/
theorem missEnded_of_targetless {i : Slot} {s : State} {l : Live} {k : Takeover} (targetless : s.retryTarget k = none)
    (left : Nat) {u : State} {p : Option Port} {c : MissCause} {m : Live}
    (h : MissPending i s l k (u.recordMiss i p c) m) : ∃ m', MissEnded i s l k (State.miss i left u p c) m' := by
  induction left generalizing u p c m with
  | zero => exact h.ended
  | succ left ih =>
    obtain ⟨a, hk⟩ := h.takeover
    rw [miss_targetless left rfl h.live hk ((h.act.retryTarget k a).trans targetless)]
    obtain ⟨m', again⟩ := (h.nextAttempt (a + 1)).again none .noTarget
    exact ih again

/-- The takeover `k` has gone on to its next attempt, toward `d`, with a new cue under the next number (R131, R145). -/
structure MissRetried (i : Slot) (s : State) (l : Live) (k : Takeover) (d : DrPort) (u : State) (m : Live) : Prop
    extends MissRecorded i s l k u m where
  state : m.custody.state = l.custody.state
  takeover : ∃ k', m.custody.takeover = some k' ∧ k'.attempt = k.attempt + 1 ∧ k'.target = d ∧
    k'.firstChoice = k.firstChoice ∧ k'.prevState = k.prevState ∧
    k'.cue.number = nextCueNumber l.custody.cueCounter ∧
    k'.cue.switchFrame = s.reference.h + (s.params i).cueLead ∧
    k'.cue.state = if l.inFlight then .computing else .issued

theorem MissRecorded.inFlight {i : Slot} {s : State} {l : Live} {k : Takeover} {u : State} {m : Live}
    (h : MissRecorded i s l k u m) : m.inFlight = l.inFlight := by
  have batch : m.batch = l.batch := by rw [h.rest]
  simp only [Live.inFlight, batch]

theorem MissPending.retried {i : Slot} {s : State} {l : Live} {k : Takeover} {u : State} {m : Live}
    (h : MissPending i s l k u m) (d : DrPort) :
    MissRetried i s l k d (u.setLive i (u.retryToward i m k d)) (u.retryToward i m k d) :=
  { h.toMissRecorded.setLive (c := (u.retryToward i m k d).custody) ⟨rfl, rfl, rfl, rfl⟩ with
    state := h.state
    takeover := by
      refine ⟨_, rfl, rfl, rfl, rfl, rfl, ?_, ?_, ?_⟩
      · exact congrArg nextCueNumber h.counter
      · simp [Live.freshCue, h.act.reference, h.act.params]
      · simp [Live.freshCue, h.inFlight] }

/-- What a miss comes to: the takeover ends with its third attempt or for want of a target, and else goes on (R145,
R146). -/
theorem missCue_settles {i : Slot} {s : State} {l : Live} {k : Takeover} (hl : s.live i = some l)
    (hk : l.custody.takeover = some k) (c : MissCause) :
    ∃ m, MissRecorded i s l k (s.missCue i k c) m ∧
      (3 ≤ k.attempt ∨ s.retryTarget k = none → MissEnded i s l k (s.missCue i k c) m) ∧
      ∀ d, k.attempt < 3 → s.retryTarget k = some d → MissRetried i s l k d (s.missCue i k c) m := by
  obtain ⟨m, first, same⟩ := missPending_first hl hk (some (drPort k.target)) c
  unfold State.missCue
  cases target : s.retryTarget k with
  | none =>
    obtain ⟨m', ended⟩ := missEnded_of_targetless target (Config.attempts - k.attempt) first
    exact ⟨m', ended.toMissRecorded, fun _ => ended, fun _ _ found => nomatch found⟩
  | some d =>
    by_cases early : k.attempt < 3
    · rw [show Config.attempts - k.attempt = 2 - k.attempt + 1 by simp only [Config.attempts]; omega,
        miss_retried _ rfl first.live same ((first.act.retryTarget k k.attempt).trans target)]
      have retried := first.retried d
      refine ⟨_, retried.toMissRecorded, fun hopeless => ?_, fun e _ found => ?_⟩
      · rcases hopeless with last | targetless
        · exact absurd early (Nat.not_lt_of_le last)
        · cases targetless
      · cases found; exact retried
    · rw [show Config.attempts - k.attempt = 0 by simp only [Config.attempts]; omega]
      obtain ⟨m', ended⟩ := first.ended
      exact ⟨m', ended.toMissRecorded, fun _ => ended, fun _ inTime _ => absurd inTime early⟩

/-- The target of a retry is the first-choice port where it is PRESENT, else, outside a takeover from DR, the other
where that one is (R145). -/
theorem retryTarget_first {s : State} {k : Takeover} (first : s.present (drPort k.firstChoice) = true) :
    s.retryTarget k = some k.firstChoice := by
  simp [State.retryTarget, first]

theorem retryTarget_other {s : State} {k : Takeover} (first : s.present (drPort k.firstChoice) = false)
    (prev : k.prevState ≠ .dr) (other : s.present (drPort (otherDr k.firstChoice)) = true) :
    s.retryTarget k = some (otherDr k.firstChoice) := by
  simp [State.retryTarget, first, prev, other]

theorem retryTarget_none {s : State} {k : Takeover} (first : s.present (drPort k.firstChoice) = false)
    (absent : k.prevState = .dr ∨ s.present (drPort (otherDr k.firstChoice)) = false) : s.retryTarget k = none := by
  rcases absent with prev | other
  · simp [State.retryTarget, first, prev]
  · simp [State.retryTarget, first, other]

/-- Settles O31: a miss comes to the end of the takeover or to a retry, and its record stands in either. -/
theorem unreadyCueIsMissed : Obligations.UnreadyCueIsMissed := by
  unfold Obligations.UnreadyCueIsMissed
  intro n i s l k slot hl taking hk unready due
  obtain ⟨cause, reached⟩ := takeSwitchFrame_of_unready hl taking hk due unready
  obtain ⟨l', recorded, ended, retried⟩ := missCue_settles hl hk cause
  rw [exec_switchFrameReached slot, reached]
  refine ⟨_, l', rfl, recorded.live, recorded.missed, by rw [recorded.rest], by rw [recorded.rest],
    by rw [recorded.rest], recorded.act.othersKept, recorded.system, recorded.fallen, recorded.unmoved,
    fun last => ?_, fun early first => ?_, fun early first prev other => ?_, fun early first absent => ?_⟩
  · have h := ended (.inl last)
    exact ⟨h.takeover, h.counter, h.state⟩
  · have h := retried _ early (retryTarget_first first)
    exact ⟨h.state.trans taking, h.takeover⟩
  · have h := retried _ early (retryTarget_other first prev other)
    exact ⟨h.state.trans taking, h.takeover⟩
  · have h := ended (.inr (retryTarget_none first absent))
    exact ⟨h.takeover, h.counter, h.state⟩

end Sys2Proof.Machine
end

section
/-! Handback: RETURN with its checks in order and its record (R149 to R154), CANCEL RETURN (R156), and the switch to
MAIN at a return's switch frame (R158, R167, R169). -/

namespace Sys2Proof.Machine

/-! ## Acts on one channel's custody -/

theorem setCustody_eq {s : State} {i : Slot} {l : Live} (hl : s.live i = some l) (c : Custody) :
    s.setCustody i c = s.setLive i { l with custody := c } := by
  rw [State.setCustody, onLive_of_some hl]

/-- A channel whose custody moves with a switch record: its custody and its segment, and the entries of the record as
the newest (R108, R169). -/
theorem custodySwitched_written {s : State} {i : Slot} {l : Live} (hl : s.live i = some l) (k : Custody) (a b : Output)
    (r : SwitchReason) (cue : Option Nat) (frame : Nat) (c : Cursor) :
    let t := ((s.setCustody i k).switchRecord i a b r cue frame c).raiseCustodyChanged
    ∃ n, t.live i = some { l with custody := k, segment := l.segmentSwitched a b frame c, latestSeq := n } ∧
      ∀ m, s.asRun.nextSeq = some m → m + (l.switchEntries a b r cue frame).length ≤ Config.lastSequence →
        Written i frame m (l.switchEntries a b r cue frame) s t ∧
        n + 1 = m + (l.switchEntries a b r cue frame).length := by
  dsimp only
  rw [setCustody_eq hl]
  obtain ⟨n, recorded, written⟩ :=
    switchRecord_written (State.live_setLive_self s i { l with custody := k }) a b r cue frame c
  refine ⟨n, by rw [State.live_raiseCustodyChanged, recorded]; rfl, fun m hm numbers => ?_⟩
  obtain ⟨⟨next, ring⟩, number⟩ := written m hm numbers
  have service : (s.setLive i { l with custody := k }).service i = s.service i := by simp [State.service]
  rw [service] at ring
  exact ⟨⟨by rw [State.asRun_raiseCustodyChanged]; exact next, by rw [State.asRun_raiseCustodyChanged]; exact ring⟩,
    number⟩

/-- The channel that an entry is written for takes its number, and is otherwise as it was. -/
theorem live_writeEntry_self {s : State} {i : Slot} {l : Live} (hl : s.live i = some l) (frame : Nat)
    (b : EntryBody) :
    (s.writeEntry i frame b).live i = some { l with latestSeq := s.asRun.nextSeq.getD l.latestSeq } := by
  rw [live_writeEntry]
  cases hn : s.asRun.nextSeq with
  | none => exact hl
  | some n => simp [hl]

/-- An entry that finds a number is the newest (R163, R164). -/
theorem newest_writeEntry {s : State} {n : Nat} (hn : s.asRun.nextSeq = some n) (i : Slot) (frame : Nat)
    (b : EntryBody) :
    (s.writeEntry i frame b).asRun.ring.getLast? = some ⟨n, i.val, s.service i, frame, s.house.rate, b⟩ := by
  rw [asRun_writeEntry, hn]
  exact getLast?_pushEntry _ _

/-! ## Requests that move the custody of one channel (R108, R206, R208) -/

@[simp] theorem reasons_restartPresence (s : State) (p q : Port) :
    ((s.restartPresence p).port q).reasons = (s.port q).reasons := by
  by_cases own : q = p
  · subst own; simp [State.restartPresence]
  · simp [State.restartPresence, own]

@[simp] theorem reasons_answer (s : State) (hd : Head) (code : Nat) (st : Status) (body : ReplyBody) (q : Port) :
    ((s.answer hd code st body).port q).reasons = (s.port q).reasons := by
  by_cases own : q = hd.port
  · subst own; rw [answer_eq_reply, port_reply_self]
  · rw [answer_eq_reply, port_reply_ne _ own]

/-- A reply after acts that move nothing of a port but its event reasons. -/
theorem PortsKept.replied {s u : State} {hd : Head} (h : PortsKept (s.restartPresence hd.port) u) (code : Nat)
    (st : Status) (body : ReplyBody) : Replied s (u.answer hd code st body) hd code st body := by
  have restarted : (s.restartPresence hd.port).port hd.port =
      { s.port hd.port with receive := .hunting, presence := some (s.timeoutOf hd.port) } :=
    State.port_setPort_self s hd.port _
  refine ⟨?_, fun q other => ?_⟩
  · rw [answer_eq_reply, attention_reply, port_reply_self, h hd.port, restarted]
  · have untouched : (s.restartPresence hd.port).port q = s.port q := State.port_setPort_ne s _ other
    rw [answer_eq_reply, port_reply_ne _ other, h q, untouched]

/-- `t` is `s` after a request of head `hd` that left slot `i` the channel `l'`, with CUSTODY_CHANGED at all three
ports, and was answered. -/
structure CustodyAnswered (s : State) (hd : Head) (i : Slot) (l' : Live) (code : Nat) (st : Status) (body : ReplyBody)
    (t : State) : Prop where
  live : t.live i = some l'
  params : t.params i = s.params i
  others : OthersKept i s t
  system : SystemKept s t
  raised : CustodyChangeRaised t
  replied : Replied s t hd code st body

theorem custodyAnswered {s u : State} {hd : Head} {i : Slot} {l' : Live} (live : u.live i = some l')
    (act : SlotAct i (s.restartPresence hd.port) u) (system : SystemKept (s.restartPresence hd.port) u) (code : Nat)
    (st : Status) (body : ReplyBody) :
    CustodyAnswered s hd i l' code st body (u.raiseCustodyChanged.answer hd code st body) where
  live := by simpa using live
  params := by simp [act.params i]
  others j hj := by simp [act.othersKept j hj]
  system := by simpa [SystemKept] using system
  raised q := by rw [reasons_answer]; exact custodyChangeRaised_raiseCustodyChanged u q
  replied := act.raised.portsKept.replied code st body

/-! ## RETURN: the checks in order (R150 to R153) -/

theorem exec_handback (hd : Head) (b : Body ReturnFields) (s : State) : exec (.handback hd b) s = execHandback hd b s :=
  rfl

@[simp] theorem mark_portL_restartPresence (s : State) (p : Port) :
    (s.restartPresence p).portL.mark = s.portL.mark := by
  cases p <;> rfl

@[simp] theorem checkReturnFrame_restartPresence (s : State) (p : Port) (i : Slot) (l : Live) (f : ReturnFields) :
    (s.restartPresence p).checkReturnFrame i l f = s.checkReturnFrame i l f := by
  simp [State.checkReturnFrame]

@[simp] theorem returnRecord_restartPresence (s : State) (p : Port) (l : Live) (t : Nat) (f : ReturnFields) :
    (s.restartPresence p).returnRecord l t f = s.returnRecord l t f := by
  simp [State.returnRecord]

/-- The checks of RETURN from Port L, of a channel in service and with its fields in range: DR, hold, commit in flight,
and those of T. -/
theorem checkReturn_of_link {s : State} {hd : Head} {f : ReturnFields} {i : Slot} {l : Live} (link : hd.port = .L)
    (names : Names s hd.port f.channel i l) (idLow : 1 ≤ f.eventId) (idHigh : f.eventId ≤ 4294967295)
    (offsetHigh : f.offset ≤ 4294967295) :
    (s.restartPresence hd.port).checkReturn hd f =
      refuseIf (decide (l.custody.state ≠ .dr)) .state
        (refuseIf l.hold.isSome .held (refuseIf l.inFlight .busy (s.checkReturnFrame i l f))) := by
  have inRange : (!within 1 4294967295 f.eventId || !within 0 4294967295 f.offset) = false := by
    simp [within, idLow, idHigh, offsetHigh]
  rw [State.checkReturn, decide_eq_false (not_not_intro link), refuseIf_false,
    addressed_of_ok names.restartPresence, inRange, refuseIf_false, checkReturnFrame_restartPresence]

/-- The checks of a T that converts: its window, the marks, and the cursor at T (R151, R152, R153). -/
theorem checkReturnFrame_of_toFrame {s : State} {f : ReturnFields} {c : Nat × Bool}
    (convert : toFrame s.house.rate f.frame = some c) (i : Slot) (l : Live) :
    s.checkReturnFrame i l f =
      refuseIf (!returnWindow s.reference.h (s.params i).cueLead (s.params i).guard c.1) .badTime
        (refuseWith (decide (s.portL.mark < l.latestSeq)) .asRunPending
          (.asRunPending s.portL.mark l.latestSeq s.asRun.newest)
          ((returnAgrees (l.cursor c.1) f.eventId f.offset).elim
            (.error (.cursorMismatch, .cursorMismatch (l.cursor c.1) (s.frame c.1)))
            fun e => .ok (i, l, c.1, c.2, e))) := by
  simp only [State.checkReturnFrame, convert]
  cases returnAgrees (l.cursor c.1) f.eventId f.offset <;> rfl

theorem checkReturnFrame_of_refused {s : State} {f : ReturnFields} (refused : toFrame s.house.rate f.frame = none)
    (i : Slot) (l : Live) : s.checkReturnFrame i l f = .error (.badTime, .empty) := by
  simp only [State.checkReturnFrame, refused]

theorem returnWindow_eq_true_iff {h lead guard t : Nat} :
    returnWindow h lead guard t = true ↔ h + lead ≤ t ∧ t < h + guard := by
  simp [returnWindow]

theorem returnWindow_eq_false_iff {h lead guard t : Nat} :
    returnWindow h lead guard t = false ↔ t < h + lead ∨ h + guard ≤ t := by
  rw [← Bool.not_eq_true, returnWindow_eq_true_iff]
  omega

theorem returnAgrees_event (e : EventCursor) : returnAgrees (.event e) e.id e.offset = some e := by
  simp [returnAgrees]

theorem returnAgrees_eq_none {c : Cursor} {id offset : Nat} (h : ∀ e, c = .event e → e.id ≠ id ∨ e.offset ≠ offset) :
    returnAgrees c id offset = none := by
  cases c with
  | event e => rcases h e rfl with other | other <;> simp [returnAgrees, other]
  | _ => rfl

/-- Settles O54: in each clause the checks before pass, and the one it names refuses. -/
theorem returnRefusalsComeInOrder : Obligations.ReturnRefusalsComeInOrder := by
  unfold Obligations.ReturnRefusalsComeInOrder
  intro hd n x id offset i l s ready link names idLow idHigh offsetHigh
  have checks := checkReturn_of_link (f := ⟨n, x, id, offset⟩) link names idLow idHigh offsetHigh
  have converted {c : Nat × Bool} (convert : toFrame s.house.rate x = some c) :=
    checkReturnFrame_of_toFrame (f := ⟨n, x, id, offset⟩) convert i l
  dsimp only
  rw [exec_handback, execHandback, takeRequest_of_ready ready, checks]
  refine ⟨fun away => ?_, fun dr held => ?_, fun dr free busy => ?_, fun dr free idle =>
    ⟨fun refused => ?_, fun c convert => ⟨fun outside => ?_, fun early late =>
      ⟨fun behind => ?_, fun read other => ?_⟩⟩⟩⟩
  · simp [away, answer_eq_reply]
  · simp [dr, held, answer_eq_reply]
  · simp [dr, free, busy, answer_eq_reply]
  · simp [dr, free, idle, checkReturnFrame_of_refused (f := ⟨n, x, id, offset⟩) refused, answer_eq_reply]
  · simp [dr, free, idle, converted convert, returnWindow_eq_false_iff.2 outside, answer_eq_reply]
  · simp [dr, free, idle, converted convert, returnWindow_eq_true_iff.2 ⟨early, late⟩, behind, answer_eq_reply]
  · simp [dr, free, idle, converted convert, returnWindow_eq_true_iff.2 ⟨early, late⟩, Nat.not_lt.2 read,
      Live.cursor, returnAgrees_eq_none other, answer_eq_reply]

/-! ## RETURN accepted (R149, R154) -/

/-- The custody record of a RETURNING channel: the return record beside what it was (R149, R154). -/
def Custody.returning (c : Custody) (r : ReturnRec) : Custody :=
  { c with state := .returning, ret := some r, switchDue := false }

theorem present_restartPresence {s : State} {p : Port} (h : s.present p = true) (q : Port) :
    (s.restartPresence p).present q = s.present q := by
  by_cases own : q = p
  · subst own; rw [h]; simp [State.present, State.restartPresence]
  · simp [State.present, State.restartPresence, own]

@[simp] theorem State.live_raiseReturnAt (s : State) (p : Option Port) (j : Slot) :
    (s.raiseReturnAt p).live j = s.live j := by
  cases p <;> simp [State.raiseReturnAt]

@[simp] theorem State.asRun_raiseReturnAt (s : State) (p : Option Port) : (s.raiseReturnAt p).asRun = s.asRun := by
  cases p <;> simp [State.raiseReturnAt]

theorem systemKept_raiseReturnAt (s : State) (p : Option Port) : SystemKept s (s.raiseReturnAt p) := by
  cases p <;> simp [SystemKept, State.raiseReturnAt]

theorem SlotAct.returnRaised {j : Slot} {s t : State} (h : SlotAct j s t) (p : Option Port) :
    SlotAct j s (t.raiseReturnAt p) := by
  cases p with
  | none => exact h
  | some p => exact h.trans (slotAct_raise j t p fun r => { r with returnPending := true })

/-- RETURN_PENDING is raised at the custodian's port alone (R154). -/
theorem returnPending_raiseReturnAt (s : State) (p : Option Port) (q : Port) :
    ((s.raiseReturnAt p).port q).reasons.returnPending =
      ((s.port q).reasons.returnPending || decide (p = some q)) := by
  cases p with
  | none => simp [State.raiseReturnAt]
  | some p =>
    by_cases own : q = p
    · subst own; simp [State.raiseReturnAt, State.raiseReturnPending, State.raise]
    · simp [State.raiseReturnAt, State.raiseReturnPending, State.raise, own, Ne.symm own]

/-- A RETURN that agrees passes its checks (R151 to R153). -/
theorem checkReturnFrame_of_agreed {s : State} {f : ReturnFields} {c : Nat × Bool} {i : Slot} {l : Live}
    {cur : EventCursor} (convert : toFrame s.house.rate f.frame = some c)
    (early : s.reference.h + (s.params i).cueLead ≤ c.1) (late : c.1 < s.reference.h + (s.params i).guard)
    (read : l.latestSeq ≤ s.portL.mark) (on : cursorAt l.events l.timeline c.1 = .event cur) (id : cur.id = f.eventId)
    (offset : cur.offset = f.offset) : s.checkReturnFrame i l f = .ok (i, l, c.1, c.2, cur) := by
  rw [checkReturnFrame_of_toFrame convert, returnWindow_eq_true_iff.2 ⟨early, late⟩,
    decide_eq_false (Nat.not_lt.2 read), Live.cursor, on, ← id, ← offset, returnAgrees_event]
  rfl

/-- The acts of an accepted RETURN: the custody record, RETURN_PENDING at the custodian, and CUSTODY_CHANGED (R154). -/
theorem acceptReturn_eq {s : State} {i : Slot} {l : Live} (hl : s.live i = some l) (t : Nat) (f : ReturnFields) :
    s.acceptReturn i l t f =
      ((s.setLive i { l with custody := l.custody.returning (s.returnRecord l t f) }).raiseReturnAt
        l.custody.custodian).raiseCustodyChanged := by
  rw [State.acceptReturn, setCustody_eq hl]
  rfl

theorem asRun_acceptReturn {s : State} {i : Slot} {l : Live} (hl : s.live i = some l) (t : Nat) (f : ReturnFields) :
    (s.acceptReturn i l t f).asRun = s.asRun := by
  rw [acceptReturn_eq hl, State.asRun_raiseCustodyChanged, State.asRun_raiseReturnAt, State.asRun_setLive]

theorem returnPending_acceptReturn {s : State} {i : Slot} {l : Live} (hl : s.live i = some l) (t : Nat)
    (f : ReturnFields) (q : Port) :
    ((s.acceptReturn i l t f).port q).reasons.returnPending =
      ((s.port q).reasons.returnPending || decide (l.custody.custodian = some q)) := by
  rw [acceptReturn_eq hl, port_raiseCustodyChanged, returnPending_raiseReturnAt, State.port_setLive]

theorem acceptReturn_answered {s : State} {hd : Head} {i : Slot} {l : Live}
    (hl : (s.restartPresence hd.port).live i = some l) (t : Nat) (f : ReturnFields) (st : Status) (body : ReplyBody) :
    CustodyAnswered s hd i { l with custody := l.custody.returning (s.returnRecord l t f) } 20 st body
      (((s.restartPresence hd.port).acceptReturn i l t f).answer hd 20 st body) := by
  rw [acceptReturn_eq hl, returnRecord_restartPresence]
  exact custodyAnswered (by simp) ((SlotAct.setLive hl (by rfl)).returnRaised _)
    ((systemKept_setLive _ i _).trans (systemKept_raiseReturnAt _ _)) 20 st body

/-- Settles O53: the checks pass, and the acts of R154 are answered. -/
theorem returnIsAcceptedOnAgreement : Obligations.ReturnIsAcceptedOnAgreement := by
  unfold Obligations.ReturnIsAcceptedOnAgreement
  intro hd n x c id offset cur i l s ready link names idLow idHigh offsetHigh dr free idle convert early late read on
    sameId sameOffset
  have hl : (s.restartPresence hd.port).live i = some l := live_of_address names.restartPresence
  have present : (s.restartPresence hd.port).present = s.present := funext (present_restartPresence ready.isPresent)
  have answered := acceptReturn_answered hl c.1 ⟨n, x, id, offset⟩ (if c.2 then .adjusted else .ok)
    (.returning (s.frame c.1) id offset cur.mediaPosition l.custody.custodian (l.custody.custodian.any s.present)
      s.portL.mark l.latestSeq)
  refine ⟨_, ?_, answered.live, answered.params, answered.others, answered.system, ?_, answered.raised, fun q => ?_,
    answered.replied⟩
  · rw [exec_handback, execHandback, takeRequest_of_ready ready,
      checkReturn_of_link link names idLow idHigh offsetHigh,
      checkReturnFrame_of_agreed convert early late read on sameId sameOffset]
    simp [dr, free, idle, present, okOr]
  · rw [State.asRun_answer, asRun_acceptReturn hl, State.asRun_restartPresence]
  · rw [reasons_answer, returnPending_acceptReturn hl, reasons_restartPresence]

/-! ## CANCEL RETURN (R156) -/

theorem exec_cancelReturn (hd : Head) (b : Body Nat) (s : State) :
    exec (.cancelReturn hd b) s = execCancelReturn hd b s := rfl

/-- The checks of CANCEL RETURN from an automation port: its custodian, then RETURNING (R156). -/
theorem checkCancelReturn_of_dr {s : State} {hd : Head} {n : Nat} {i : Slot} {l : Live} (hp : hd.port ≠ .L)
    (names : Names s hd.port n i l) :
    (s.restartPresence hd.port).checkCancelReturn hd n =
      refuseIf (decide (l.custody.custodian ≠ some hd.port)) .notCustodian
        (if l.custody.state = .returning then
          l.custody.ret.elim (.error (.state, .empty)) fun r => .ok (i, r.frame)
        else .error (.state, .empty)) := by
  rw [State.checkCancelReturn, fromDr, decide_eq_false hp, refuseIf_false, addressed_of_ok names.restartPresence]
  cases l.custody.state <;> cases l.custody.ret <;> rfl

/-- The channel whose return is withdrawn, but for its log and its flags (R156). -/
def Live.returnWithdrawn (l : Live) : Live :=
  { l with custody := { l.custody with state := .dr, ret := none, switchDue := false } }

/-- The acts of a withdrawal before CUSTODY_CHANGED: the custody record, RETURN_CANCELLED, and the CANCEL entry (R156).
-/
def State.recordWithdrawal (s : State) (i : Slot) (l : Live) (frame : Nat) (p : Port) : State :=
  ((s.setLive i l.returnWithdrawn).reportChannel i .returnCancelled (some p) (.returnFrame frame)).writeEntry i
    s.reference.h (.switch l.custody.output l.custody.output .cancel none)

theorem withdrawReturn_eq {s : State} {i : Slot} {l : Live} {r : ReturnRec} (hl : s.live i = some l)
    (hr : l.custody.ret = some r) (p : Port) :
    s.withdrawReturn i p = (s.recordWithdrawal i l r.frame p).raiseCustodyChanged := by
  rw [State.withdrawReturn, onLive_of_some hl]
  simp only [hr]
  rw [switchRecord_same, setCustody_eq hl]
  rfl

theorem slotAct_recordWithdrawal {s : State} {i : Slot} {l : Live} (hl : s.live i = some l) (frame : Nat) (p : Port) :
    SlotAct i s (s.recordWithdrawal i l frame p) :=
  ((SlotAct.setLive hl (by rfl)).reported (by decide) _ _).trans (slotAct_writeEntry _ i _ _)

theorem systemKept_recordWithdrawal (s : State) (i : Slot) (l : Live) (frame : Nat) (p : Port) :
    SystemKept s (s.recordWithdrawal i l frame p) :=
  ((systemKept_setLive s i _).trans (systemKept_reportChannel _ i _ _ _)).trans (logActs_writeEntry _ i _ _).system

/-- The channel of a return withdrawn: its custody record, its number and RETURN_CANCELLED. -/
theorem live_recordWithdrawal (s : State) (i : Slot) (l : Live) (frame : Nat) (p : Port) :
    (s.recordWithdrawal i l frame p).live i = some { l.returnWithdrawn with
      flags := addFlag .returnCancelled l.flags
      latestSeq := s.asRun.nextSeq.getD l.latestSeq } := by
  rw [State.recordWithdrawal,
    live_writeEntry_self (live_reportChannel_self (State.live_setLive_self s i _) _ _ _)]
  simp [State.reportChannel, Live.returnWithdrawn]

theorem newest_recordWithdrawal {s : State} {n : Nat} (hn : s.asRun.nextSeq = some n) (i : Slot) (l : Live)
    (frame : Nat) (p : Port) :
    (s.recordWithdrawal i l frame p).asRun.ring.getLast? =
      some ⟨n, i.val, s.service i, s.reference.h, s.house.rate,
        .switch l.custody.output l.custody.output .cancel none⟩ := by
  rw [State.recordWithdrawal, newest_writeEntry (n := n) (by simpa [State.reportChannel] using hn)]
  simp [State.reportChannel, State.service]

/-- Settles O55, by the checks of R156 in their order and the acts of the withdrawal. -/
theorem cancelReturnKeepsTheDrCustodian : Obligations.CancelReturnKeepsTheDrCustodian := by
  unfold Obligations.CancelReturnKeepsTheDrCustodian
  intro hd n i l s ready hp names
  have hl : (s.restartPresence hd.port).live i = some l := live_of_address names.restartPresence
  dsimp only
  rw [exec_cancelReturn, execCancelReturn, takeRequest_of_ready ready, checkCancelReturn_of_dr hp names]
  refine ⟨fun other => ?_, fun own away => ?_, fun r own returning hr => ?_⟩
  · simp [other, answer_eq_reply]
  · simp [own, away, answer_eq_reply]
  · have live := live_recordWithdrawal (s.restartPresence hd.port) i l r.frame hd.port
    have answered := custodyAnswered live (slotAct_recordWithdrawal hl r.frame hd.port)
      (systemKept_recordWithdrawal _ i l r.frame hd.port) 21 .ok (.returnCancelled (s.frame r.frame) .dr)
    refine ⟨_, _, ?_, answered.live, rfl, rfl, rfl, rfl, rfl, mem_addFlag_self _ _, answered.params, answered.others,
      answered.system, answered.raised, answered.replied, fun m hm => ⟨?_, ?_⟩⟩
    · simp [own, returning, hr, withdrawReturn_eq hl hr, State.custodyState, live, Live.returnWithdrawn]
    · simp [hm]
    · simpa using newest_recordWithdrawal (s := s.restartPresence hd.port) (n := m) (by simpa using hm) i l r.frame
        hd.port

/-! ## The switch frame of a return (R158) -/

theorem exec_returnSwitchFrame {n : Nat} {i : Slot} (h : slotOf n = some i) (s : State) :
    exec (.returnSwitchFrame n) s = .next (s.takeReturnFrame i) := by
  show execReturnSwitchFrame n s = _
  rw [execReturnSwitchFrame, onSlot, h]

/-- The custody record of a channel after its return's switch (R158). -/
def Custody.returned (c : Custody) : Custody :=
  { c with state := .main, custodian := some .L, output := .main, ret := none, switchDue := false }

/-- The act at a return's switch frame reached is the switch to MAIN with its switch record (R158). -/
theorem takeReturnFrame_of_due {s : State} {i : Slot} {l : Live} {r : ReturnRec} (hl : s.live i = some l)
    (returning : l.custody.state = .returning) (hr : l.custody.ret = some r) (due : l.custody.switchDue = true) :
    s.takeReturnFrame i = ((s.setCustody i l.custody.returned).switchRecord i l.custody.output .main .return_ none
      r.frame (l.cursor r.frame)).raiseCustodyChanged := by
  rw [State.takeReturnFrame, onLive_of_some hl]
  simp [returning, hr, due, Custody.returned]

theorem takeReturnFrame_of_undue {s : State} {i : Slot} {l : Live} {r : ReturnRec} (hl : s.live i = some l)
    (returning : l.custody.state = .returning) (hr : l.custody.ret = some r) (undue : l.custody.switchDue = false) :
    s.takeReturnFrame i = s := by
  rw [State.takeReturnFrame, onLive_of_some hl]
  simp [returning, hr, undue]

theorem ne_main_of_isDrOutput {a : Output} (dr : isDrOutput a = true) : a ≠ .main := by
  rintro rfl
  cases dr

/-- A switch from a DR output to MAIN leaves no segment open (R169). -/
theorem segmentSwitched_toMain (l : Live) {a : Output} (dr : isDrOutput a = true) (frame : Nat) (c : Cursor) :
    l.segmentSwitched a .main frame c = none := by
  simp [Live.segmentSwitched, Live.segmentLeft, dr, ne_main_of_isDrOutput dr, show isDrOutput .main = false from rfl]

/-- It writes the AIRED entry of the segment closed, and then its SWITCH entry (R167, R169). -/
theorem switchEntries_toMain (l : Live) {a : Output} (dr : isDrOutput a = true) (r : SwitchReason) (cue : Option Nat)
    (frame : Nat) : l.switchEntries a .main r cue frame = airedEntries frame l.segment ++ [.switch a .main r cue] := by
  simp [Live.switchEntries, dr, ne_main_of_isDrOutput dr]

/-- Settles O32: at the switch frame the switch with its switch record, and before it nothing. -/
theorem returnSwitchesToMain : Obligations.ReturnSwitchesToMain := by
  unfold Obligations.ReturnSwitchesToMain
  intro n i s l r slot hl returning hr dr
  rw [exec_returnSwitchFrame slot]
  refine ⟨fun due => ?_, fun undue => by rw [takeReturnFrame_of_undue hl returning hr undue]⟩
  have act := slotAct_takeReturnFrame s i
  obtain ⟨latest, live, written⟩ := custodySwitched_written hl l.custody.returned l.custody.output .main .return_ none
    r.frame (l.cursor r.frame)
  rw [switchEntries_toMain l dr] at written
  rw [takeReturnFrame_of_due hl returning hr due] at act ⊢
  exact ⟨_, _, rfl, live, rfl, rfl, rfl, rfl, segmentSwitched_toMain l dr r.frame (l.cursor r.frame), rfl, rfl, rfl,
    rfl, rfl, custodyChangeRaised_raiseCustodyChanged _, act.portsKept, act.othersKept,
    ((systemKept_setCustody s i _).trans (systemKept_switchRecord _ i _ _ _ _ _ _)).trans
      (systemKept_raiseCustodyChanged _), act.params i, written⟩

end Sys2Proof.Machine
end

section
/-! The as-run log under single acts: what an act can do to the ring, the read marks, the latest numbers and the open
segments, and the two laws of the log under each such act (R163 to R173). -/

namespace Sys2Proof.Machine

/-! ## Moves on the log -/

/-- The open segment, the output it stands under and the latest number of a channel (R108, R165, R171). -/
def Live.logFields (l : Live) : Option Segment × Output × Nat := (l.segment, l.custody.output, l.latestSeq)

/-- `t` is `s` after acts that leave alone the log, every read mark and every channel's log fields. -/
structure LogStands (s t : State) : Prop where
  asRun : t.asRun = s.asRun
  marks : ∀ p, (t.port p).mark = (s.port p).mark
  fields : ∀ j, (t.live j).map Live.logFields = (s.live j).map Live.logFields

/-- A segment is open only under a DR output, `out`, which is its own (R165). -/
def SegmentUnder (g : Option Segment) (out : Output) : Prop :=
  ∀ x, g = some x → isDrOutput out = true ∧ x.output = out

/-- What one act can do to the log: nothing; an entry; a segment closed, or opened under its output; a switch record
with the move of the custody record between the outputs it names; a read mark set to a number of the log; or a channel
that comes into service or leaves it (R163, R166 to R169, R171, R173, R188, R189). -/
inductive LogMove : State → State → Prop
  | stands {s t : State} (h : LogStands s t) : LogMove s t
  | entry (s : State) (i : Slot) (frame : Nat) (body : EntryBody) : LogMove s (s.writeEntry i frame body)
  | segment {s : State} {i : Slot} {l : Live} {g : Option Segment} (hl : s.live i = some l)
      (under : SegmentUnder g l.custody.output) : LogMove s (s.setSegment i g)
  | handover {s : State} {i : Slot} {l : Live} (hl : s.live i = some l) (c : Custody) (r : SwitchReason)
      (cue : Option Nat) (frame : Nat) (cur : Cursor) :
      LogMove s ((s.setCustody i c).switchRecord i l.custody.output c.output r cue frame cur)
  | mark {s : State} {p : Port} {u : PortUnit}
      (numbered : u.mark ≤ s.asRun.newest ∨ ∃ e ∈ s.asRun.ring, e.seq = u.mark) : LogMove s (s.setPort p u)
  | service {s t : State} {i : Slot} (asRun : t.asRun = s.asRun) (marks : ∀ p, (t.port p).mark = (s.port p).mark)
      (others : ∀ j, j ≠ i → t.live j = s.live j)
      (fresh : ∀ l, t.live i = some l → l.segment = none ∧ l.latestSeq = 0) :
      LogMove s t

/-- `t` is `s` after such acts, one after another. -/
inductive LogCourse : State → State → Prop
  | refl (s : State) : LogCourse s s
  | tail {s t u : State} (h : LogCourse s t) (last : LogMove t u) : LogCourse s u

theorem LogCourse.move {s t : State} (h : LogMove s t) : LogCourse s t := .tail (.refl s) h

theorem LogCourse.trans {s t u : State} (h : LogCourse s t) (k : LogCourse t u) : LogCourse s u := by
  induction k with
  | refl => exact h
  | tail _ last ih => exact ih.tail last

/-- A channel of a state reached without an act on the log was one, with the same log fields. -/
theorem LogStands.live {s t : State} (h : LogStands s t) {j : Slot} {l' : Live} (hl : t.live j = some l') :
    ∃ l, s.live j = some l ∧ l'.segment = l.segment ∧ l'.custody.output = l.custody.output ∧
      l'.latestSeq = l.latestSeq := by
  have fields := h.fields j
  rw [hl] at fields
  obtain ⟨l, hs, same⟩ := Option.map_eq_some_iff.1 fields.symm
  simp only [Live.logFields, Prod.mk.injEq] at same
  obtain ⟨segment, output, latest⟩ := same
  exact ⟨l, hs, segment.symm, output.symm, latest.symm⟩

/-! ## Segments (R165 to R169) -/

/-- The segment that a switch record leaves stands under the output switched to, where the one before stood under the
output switched from. -/
theorem segmentUnder_segmentSwitched {l : Live} {a : Output} (h : SegmentUnder l.segment a) (b : Output) (frame : Nat)
    (c : Cursor) : SegmentUnder (l.segmentSwitched a b frame c) b := by
  have left : SegmentUnder (l.segmentLeft a b) b := by
    intro x hx
    unfold Live.segmentLeft at hx
    split at hx
    · cases hx
    · rename_i stays
      obtain ⟨dr, own⟩ := h x hx
      have same : a = b := by simpa [dr] using stays
      exact same ▸ ⟨dr, own⟩
  unfold Live.segmentSwitched
  split
  · rename_i opens
    cases c with
    | event e => intro x hx; cases hx; exact ⟨opens.1, rfl⟩
    | _ => exact left
  · exact left

/-- A state keeps R165 where each of its channels has a lawful segment or stands as one of a lawful state. -/
theorem segmentLaw_of_channels {s t : State} (law : SegmentLaw s)
    (h : ∀ j l', t.live j = some l' → SegmentUnder l'.segment l'.custody.output ∨
      ∃ l, s.live j = some l ∧ l'.segment = l.segment ∧ l'.custody.output = l.custody.output) : SegmentLaw t := by
  intro j l' hl'
  rcases h j l' hl' with under | ⟨l, hl, segment, output⟩
  · exact under
  · rw [segment, output]; exact law j l hl

/-- Every act on the log keeps R165. -/
theorem LogMove.segmentLaw {s t : State} (move : LogMove s t) (law : SegmentLaw s) : SegmentLaw t := by
  refine segmentLaw_of_channels law fun j l' hl' => ?_
  cases move with
  | stands h =>
    obtain ⟨l, hl, segment, output, -⟩ := h.live hl'
    exact .inr ⟨l, hl, segment, output⟩
  | entry i frame body =>
    rw [live_writeEntry] at hl'
    split at hl'
    · exact .inr ⟨l', hl', rfl, rfl⟩
    · split at hl'
      · rename_i own
        obtain ⟨l, hl, rfl⟩ := Option.map_eq_some_iff.1 hl'
        exact .inr ⟨l, own ▸ hl, rfl, rfl⟩
      · exact .inr ⟨l', hl', rfl, rfl⟩
  | @segment i l g hl under =>
    rw [setSegment_eq hl, State.live_setLive] at hl'
    split at hl'
    · cases hl'; exact .inl under
    · exact .inr ⟨l', hl', rfl, rfl⟩
  | @handover i l hl c r cue frame cur =>
    by_cases own : j = i
    · subst own
      obtain ⟨n, live, -⟩ := custodySwitched_written hl c l.custody.output c.output r cue frame cur
      rw [State.live_raiseCustodyChanged, hl'] at live
      cases live
      exact .inl (segmentUnder_segmentSwitched (law j l hl) _ frame cur)
    · rw [(logActs_switchRecord _ i _ _ r cue frame cur).others j own, live_setCustody, if_neg own] at hl'
      exact .inr ⟨l', hl', rfl, rfl⟩
  | mark numbered => exact .inr ⟨l', by simpa using hl', rfl, rfl⟩
  | @service _ i asRun marks others fresh =>
    by_cases own : j = i
    · obtain ⟨closed, -⟩ := fresh l' (own ▸ hl')
      exact .inl fun x hx => by rw [closed] at hx; cases hx
    · exact .inr ⟨l', others j own ▸ hl', rfl, rfl⟩

/-! ## The ring (R163, R172) -/

theorem newest_write (r : AsRun) (n : Nat) (e : LogEntry) : (r.write n e).newest = e.seq := by
  simp [AsRun.newest, AsRun.write, getLast?_pushEntry]

/-- The next number of a ring in sequence follows the newest, and is one of 48 bits. -/
theorem RingLaw.nextSeq_eq {r : AsRun} (law : RingLaw r) {n : Nat} (hn : r.nextSeq = some n) :
    n = r.newest + 1 ∧ n ≤ Config.lastSequence := by
  obtain ⟨-, -, -, ⟨below, next⟩ | ⟨-, next⟩⟩ := law
  · rw [hn] at next; cases next; exact ⟨rfl, below⟩
  · rw [hn] at next; cases next

/-- Consecutive numbers up to `m`, with the next after them. -/
theorem range'_concat_next {k m : Nat} (h : k ≤ m) :
    List.range' (m + 1 - k) k ++ [m + 1] = List.range' (m + 1 + 1 - (k + 1)) (k + 1) := by
  have first : m + 1 + 1 - (k + 1) = m + 1 - k := by omega
  have last : m + 1 - k + 1 * k = m + 1 := by omega
  rw [first, List.range'_concat, last]

/-- A ring in sequence with the next entry added is one, whether or not the oldest goes for it (R163). -/
theorem numbers_pushEntry {ring : List LogEntry} {m : Nat} {e : LogEntry} (room : ring.length ≤ Config.ringEntries)
    (counted : ring.length ≤ m) (numbers : ring.map (·.seq) = List.range' (m + 1 - ring.length) ring.length)
    (he : e.seq = m + 1) :
    (pushEntry ring e).length ≤ Config.ringEntries ∧ (pushEntry ring e).length ≤ m + 1 ∧
      (pushEntry ring e).map (·.seq) =
        List.range' (m + 1 + 1 - (pushEntry ring e).length) (pushEntry ring e).length := by
  unfold pushEntry
  split
  · rename_i free
    rw [List.length_append, List.length_singleton, ← range'_concat_next counted]
    exact ⟨free, by omega, by simp [numbers, he]⟩
  · rename_i full
    have positive : 0 < Config.ringEntries := by decide
    have shorter : ring.length - 1 + 1 = ring.length := by omega
    have second : m + 1 - ring.length + 1 = m + 1 - (ring.length - 1) := by omega
    rw [List.length_append, List.length_singleton, List.length_tail, ← range'_concat_next (by omega)]
    refine ⟨by omega, by omega, ?_⟩
    rw [List.map_append, List.map_tail, numbers, List.tail_range', second]
    simp [he]

/-- The entry that takes the next number keeps the ring in sequence. -/
theorem RingLaw.write {r : AsRun} (law : RingLaw r) {n : Nat} (hn : r.nextSeq = some n) {e : LogEntry}
    (he : e.seq = n) : RingLaw (r.write n e) := by
  obtain ⟨next, last⟩ := law.nextSeq_eq hn
  obtain ⟨room, numbers, counted, -⟩ := law
  subst next
  obtain ⟨room', counted', numbers'⟩ := numbers_pushEntry room counted numbers he
  have newest : (r.write (r.newest + 1) e).newest = r.newest + 1 := (newest_write r _ e).trans he
  unfold RingLaw
  rw [newest]
  refine ⟨room', numbers', counted', ?_⟩
  by_cases full : r.newest + 1 = Config.lastSequence
  · exact .inr ⟨full, if_pos full⟩
  · exact .inl ⟨by omega, if_neg full⟩

/-- No number of a ring in sequence exceeds the newest. -/
theorem RingLaw.seq_le {r : AsRun} (law : RingLaw r) {e : LogEntry} (he : e ∈ r.ring) : e.seq ≤ r.newest := by
  obtain ⟨-, numbers, counted, -⟩ := law
  have listed : e.seq ∈ r.ring.map (·.seq) := List.mem_map_of_mem he
  rw [numbers, List.mem_range'_1] at listed
  omega

/-! ## Marks and latest numbers (R171, R173) -/

/-- A ring in sequence whose newest number has not fallen keeps the law, where each mark and each latest number is
within it or as it was. -/
theorem logLaw_of_numbers {s t : State} (law : LogLaw s) (ring : RingLaw t.asRun)
    (newest : s.asRun.newest ≤ t.asRun.newest)
    (marks : ∀ p, (t.port p).mark ≤ t.asRun.newest ∨ (t.port p).mark = (s.port p).mark)
    (latest : ∀ j l', t.live j = some l' → l'.latestSeq ≤ t.asRun.newest ∨
      ∃ l, s.live j = some l ∧ l'.latestSeq = l.latestSeq) : LogLaw t := by
  obtain ⟨-, oldMarks, oldLatest⟩ := law
  refine ⟨ring, fun p => ?_, fun j l' hl' => ?_⟩
  · rcases marks p with within | same
    · exact within
    · exact same ▸ Nat.le_trans (oldMarks p) newest
  · rcases latest j l' hl' with within | ⟨l, hl, same⟩
    · exact within
    · exact same ▸ Nat.le_trans (oldLatest j l hl) newest

theorem mark_writeEntry (s : State) (i : Slot) (frame : Nat) (b : EntryBody) (p : Port) :
    ((s.writeEntry i frame b).port p).mark = (s.port p).mark := by
  rcases (logActs_writeEntry s i frame b).ports p with e | e <;> rw [e]

/-- An entry keeps the log in sequence, whether it is written or finds the log full (R163, R171, R172). -/
theorem logLaw_writeEntry {s : State} (law : LogLaw s) (i : Slot) (frame : Nat) (b : EntryBody) :
    LogLaw (s.writeEntry i frame b) := by
  have ring : RingLaw s.asRun := law.1
  have log := asRun_writeEntry s i frame b
  have live := live_writeEntry s i frame b
  cases hn : s.asRun.nextSeq with
  | none =>
    simp only [hn] at log live
    refine logLaw_of_numbers law ?_ ?_ (fun p => .inr (mark_writeEntry s i frame b p)) fun j l' hl' =>
      .inr ⟨l', live j ▸ hl', rfl⟩
    · rw [log]; exact ring
    · rw [log]; exact Nat.le_refl _
  | some n =>
    simp only [hn] at log live
    have next := (ring.nextSeq_eq hn).1
    have newest : (s.writeEntry i frame b).asRun.newest = n := by rw [log, newest_write]
    refine logLaw_of_numbers law ?_ (by omega) (fun p => .inr (mark_writeEntry s i frame b p)) fun j l' hl' => ?_
    · rw [log]; exact ring.write hn rfl
    · rw [live j] at hl'
      split at hl'
      · obtain ⟨l, -, rfl⟩ := Option.map_eq_some_iff.1 hl'
        exact .inl (Nat.le_of_eq newest.symm)
      · exact .inr ⟨l', hl', rfl⟩

theorem logLaw_writeEntries {s : State} (law : LogLaw s) (i : Slot) (frame : Nat) (bodies : List EntryBody) :
    LogLaw (s.writeEntries i frame bodies) := by
  induction bodies generalizing s with
  | nil => exact law
  | cons b bodies ih => exact ih (logLaw_writeEntry law i frame b)

/-- A channel changed in all but its latest number. -/
theorem logLaw_setLive {s : State} (law : LogLaw s) {i : Slot} {l l' : Live} (hl : s.live i = some l)
    (latest : l'.latestSeq = l.latestSeq) : LogLaw (s.setLive i l') := by
  refine logLaw_of_numbers law law.1 (Nat.le_refl _) (fun p => .inr (by rw [State.port_setLive])) fun j m hm => ?_
  rw [State.live_setLive] at hm
  split at hm
  · rename_i own
    cases hm
    exact .inr ⟨l, own ▸ hl, latest⟩
  · exact .inr ⟨m, hm, rfl⟩

theorem logLaw_setSegment {s : State} (law : LogLaw s) (i : Slot) (g : Option Segment) : LogLaw (s.setSegment i g) :=
  onLive_induct (fun _ => law) fun _ hl => logLaw_setLive law hl rfl

theorem logLaw_switchRecord {s : State} (law : LogLaw s) {i : Slot} {l : Live} (hl : s.live i = some l) (a b : Output)
    (r : SwitchReason) (cue : Option Nat) (frame : Nat) (c : Cursor) :
    LogLaw (s.switchRecord i a b r cue frame c) := by
  rw [switchRecord_eq hl]
  exact logLaw_setSegment (logLaw_writeEntries (logLaw_setSegment law i _) i frame _) i _

/-- Every act on the log keeps it in sequence. -/
theorem LogMove.logLaw {s t : State} (move : LogMove s t) (law : LogLaw s) : LogLaw t := by
  cases move with
  | stands h =>
    refine logLaw_of_numbers law (h.asRun ▸ law.1) (Nat.le_of_eq (by rw [h.asRun])) (fun p => .inr (h.marks p))
      fun j l' hl' => ?_
    obtain ⟨l, hl, -, -, latest⟩ := h.live hl'
    exact .inr ⟨l, hl, latest⟩
  | entry i frame body => exact logLaw_writeEntry law i frame body
  | segment _ _ => exact logLaw_setSegment law _ _
  | handover hl c r cue frame cur =>
    rw [setCustody_eq hl]
    refine logLaw_switchRecord ?_ (State.live_setLive_self _ _ _) _ _ r cue frame cur
    exact logLaw_setLive law hl rfl
  | @mark p u numbered =>
    have ring : RingLaw s.asRun := law.1
    have within : u.mark ≤ s.asRun.newest := by
      rcases numbered with below | ⟨e, he, same⟩
      · exact below
      · exact same ▸ ring.seq_le he
    refine logLaw_of_numbers law (by simpa using ring) (by simp) (fun q => ?_) fun j l' hl' =>
      .inr ⟨l', by simpa using hl', rfl⟩
    rw [State.port_setPort]
    split
    · exact .inl (by simpa using within)
    · exact .inr rfl
  | @service _ i asRun marks others fresh =>
    refine logLaw_of_numbers law (asRun ▸ law.1) (Nat.le_of_eq (by rw [asRun])) (fun p => .inr (marks p))
      fun j l' hl' => ?_
    by_cases own : j = i
    · obtain ⟨-, unnumbered⟩ := fresh l' (own ▸ hl')
      exact .inl (by rw [unnumbered]; exact Nat.zero_le _)
    · exact .inr ⟨l', others j own ▸ hl', rfl⟩

/-! ## Courses of such acts -/

/-- A law that every act on the log keeps holds after any course of them. -/
theorem LogCourse.keeps {P : State → Prop} (h : ∀ {s t}, LogMove s t → P s → P t) {s t : State} (course : LogCourse s t)
    (hs : P s) : P t := by
  induction course with
  | refl => exact hs
  | tail _ last ih => exact h last ih

end Sys2Proof.Machine
end

section
/-! The shared acts as courses of acts on the log: those that leave it alone, the notices and switch records, custody,
the resolver, the batch engine, the ports and a frame arrival (R66 to R70, R102 to R105, R117 to R119, R142 to R147,
R156 to R158, R166 to R169, R208 to R211). -/

namespace Sys2Proof.Machine

/-! ## Acts that leave the log alone -/

theorem LogCourse.stands {s t : State} (h : LogStands s t) : LogCourse s t := .move (.stands h)

/-- An act that leaves alone the log, the marks and every channel in service. -/
theorem LogCourse.of_live_eq {s t : State} (asRun : t.asRun = s.asRun) (marks : ∀ p, (t.port p).mark = (s.port p).mark)
    (live : ∀ j, t.live j = s.live j) : LogCourse s t :=
  .stands ⟨asRun, marks, fun j => by rw [live j]⟩

theorem LogCourse.setLive {s : State} {i : Slot} {l l' : Live} (hl : s.live i = some l)
    (same : l'.logFields = l.logFields) : LogCourse s (s.setLive i l') := by
  refine .stands ⟨rfl, fun p => by rw [State.port_setLive], fun j => ?_⟩
  rw [State.live_setLive]
  split
  · rename_i own; simp [own, hl, same]
  · rfl

theorem LogCourse.setCustody {s : State} {i : Slot} {l : Live} (hl : s.live i = some l) {c : Custody}
    (same : c.output = l.custody.output) : LogCourse s (s.setCustody i c) := by
  rw [setCustody_eq hl]
  exact .setLive hl (by simp [Live.logFields, same])

theorem LogCourse.setPort {s : State} {p : Port} {u : PortUnit} (same : u.mark = (s.port p).mark) :
    LogCourse s (s.setPort p u) := by
  refine .of_live_eq (by simp) (fun q => ?_) (by simp)
  rw [State.port_setPort]
  split
  · rename_i own; rw [own, same]
  · rfl

theorem LogCourse.onLive {i : Slot} {s : State} {f : Live → State} (h : ∀ l, s.live i = some l → LogCourse s (f l)) :
    LogCourse s (onLive i s f) :=
  onLive_induct (P := LogCourse s) (fun _ => .refl _) h

theorem LogCourse.onSlot {n : Nat} {s : State} {f : Slot → State} (h : ∀ i, LogCourse s (f i)) :
    LogCourse s (onSlot n s f) :=
  onSlot_induct (P := LogCourse s) (.refl s) h

theorem LogCourse.pass {f : Slot → State → State} (h : ∀ i s, LogCourse s (f i s)) (s : State) :
    LogCourse s (forSlots f s) :=
  forSlots_induct (P := LogCourse s) (fun i t course => course.trans (h i t)) (.refl s)

theorem course_raise (s : State) (p : Port) (f : EventReasons → EventReasons) : LogCourse s (s.raise p f) :=
  .setPort (by rfl)

theorem LogCourse.raised {s t : State} (h : LogCourse s t) : LogCourse s t.raiseCustodyChanged :=
  ((h.trans (course_raise t _ _)).trans (course_raise _ _ _)).trans (course_raise _ _ _)

theorem course_raisePolicyNotice (s : State) : LogCourse s s.raisePolicyNotice :=
  (course_raise s _ _).trans (course_raise _ _ _)

theorem logFields_reportedFlags (r : FaultReport) (j : Slot) (l : Live) :
    (reportedFlags r j l).logFields = l.logFields := by
  unfold reportedFlags
  split <;> rfl

theorem course_report (s : State) (r : FaultReport) : LogCourse s (s.report r) := by
  refine .stands ⟨by simp, fun p => by rw [port_report], fun j => ?_⟩
  rw [live_report, Option.map_map]
  congr 1
  funext l
  exact logFields_reportedFlags r j l

theorem LogCourse.reported {s t : State} (h : LogCourse s t) (i : Slot) (c : FaultClass) (p : Option Port)
    (d : FaultDetail) : LogCourse s (t.reportChannel i c p d) :=
  h.trans (course_report t _)

theorem LogCourse.replied {s t : State} (h : LogCourse s t) (p : Port) (code tag : Nat) (st : Status)
    (body : ReplyBody) : LogCourse s (t.reply p code tag st body) :=
  h.trans (.setPort (by rfl))

theorem LogCourse.answered {s t : State} (h : LogCourse s t) (hd : Head) (code : Nat) (st : Status) (body : ReplyBody) :
    LogCourse s (t.answer hd code st body) :=
  h.replied hd.port code hd.tag st body

theorem LogCourse.repliedLater {s t : State} (h : LogCourse s t) (p : Port) (code tag : Nat) (st : Status)
    (body : ReplyBody) : LogCourse s (t.replyLater p code tag st body) :=
  (h.replied p code tag st body).trans (.setPort (by rfl))

/-! ## Notices and switch records (R166 to R169) -/

theorem segmentUnder_none (out : Output) : SegmentUnder none out := fun _ h => by cases h

theorem course_writeEntry (s : State) (i : Slot) (frame : Nat) (b : EntryBody) : LogCourse s (s.writeEntry i frame b) :=
  .move (.entry s i frame b)

theorem course_writeEntries (s : State) (i : Slot) (frame : Nat) (bodies : List EntryBody) :
    LogCourse s (s.writeEntries i frame bodies) := by
  induction bodies generalizing s with
  | nil => exact .refl _
  | cons b bodies ih => exact (course_writeEntry s i frame b).trans (ih _)

theorem course_closeSegment (s : State) (i : Slot) (frame : Nat) : LogCourse s (s.closeSegment i frame) := by
  cases hl : s.live i with
  | none => rw [State.closeSegment, onLive_of_none hl]; exact .refl s
  | some l =>
    rw [closeSegment_eq hl]
    exact .trans (.move (.segment hl (segmentUnder_none _))) (course_writeEntries _ i frame _)

theorem course_endNotice (s : State) (i : Slot) (id frame : Nat) : LogCourse s (s.endNotice i id frame) := by
  unfold State.endNotice
  split
  · exact course_closeSegment s i frame
  · exact .refl _

/-- A start notice under the DR output of its channel (R166, R67). -/
theorem course_startNotice {s : State} {i : Slot} {l : Live} (hl : s.live i = some l)
    (dr : isDrOutput l.custody.output = true) (id frame offset : Nat) :
    LogCourse s (s.startNotice i id frame offset l.custody.output) := by
  unfold State.startNotice
  split
  · exact .refl _
  · obtain ⟨g, n, closed⟩ := (logActs_closeSegment s i frame).channel l hl
    refine (course_closeSegment s i frame).trans (.move (.segment closed fun x hx => ?_))
    cases hx
    exact ⟨dr, rfl⟩

/-- The notices of an advancing arrival for a channel under a DR output (R67). -/
theorem course_notices {s : State} {i : Slot} {l : Live} (hl : s.live i = some l)
    (dr : isDrOutput l.custody.output = true) (followed : Option Cursor) (cur : Cursor) (h : Nat) :
    LogCourse s (s.notices i l followed cur h) := by
  have ended : LogCourse s (s.afterEnd i followed cur h) ∧ LogActs i s (s.afterEnd i followed cur h) := by
    unfold State.afterEnd
    split
    · split
      · exact ⟨.refl s, .refl i s⟩
      · exact ⟨course_endNotice s i _ h, logActs_endNotice s i _ h⟩
    · exact ⟨.refl s, .refl i s⟩
  obtain ⟨g, n, live⟩ := ended.2.channel l hl
  obtain ⟨m, skipped⟩ := live_writeEntries_of_live i h (l.skippedEntries h) live
  rw [notices_eq]
  refine (ended.1.trans (course_writeEntries _ i h (l.skippedEntries h))).trans ?_
  unfold State.afterStart
  split
  · split
    · exact .refl _
    · exact course_startNotice skipped dr _ h _
  · exact .refl _

/-- A switch record between equal outputs (R169). -/
theorem LogCourse.recorded {s t : State} (h : LogCourse s t) (i : Slot) (a : Output) (r : SwitchReason)
    (cue : Option Nat) (frame : Nat) (cur : Cursor) : LogCourse s (t.switchRecord i a a r cue frame cur) := by
  rw [switchRecord_same]
  exact h.trans (course_writeEntry t i frame _)

/-! ## Takeovers and evaluation (R117 to R119) -/

theorem course_enterTaking (s : State) (i : Slot) (d : DrPort) (o : Origin) (m : TakeMode) :
    LogCourse s (s.enterTaking i d o m) :=
  .onLive fun _ hl => .raised (.setLive hl (by rfl))

theorem course_carryOut (s : State) (i : Slot) (a : PolicyAction) : LogCourse s (s.carryOut i a).1 := by
  rcases carryOut_cases s i a with e | ⟨o, e, -⟩ | ⟨d, m, e, -⟩ <;> rw [e]
  · exact .refl s
  · exact course_raisePolicyNotice s
  · exact course_enterTaking s i d .policy m

theorem course_evaluate (s : State) (i : Slot) : LogCourse s (s.evaluate i).1 := by
  cases hl : s.live i with
  | none => rw [State.evaluate, hl]; exact .refl s
  | some l =>
    by_cases rests : l.custody.state = .main ∨ l.custody.state = .safe
    · rw [evaluate_of_rests hl rests]
      exact (course_carryOut s i _).trans (.onLive fun _ h1 => .setCustody h1 (by rfl))
    · rw [evaluate_of_other hl (fun e => rests (.inl e)) fun e => rests (.inr e)]
      exact .refl s

theorem course_changeConditions (s : State) (i : Slot) {f : Live → Custody → Custody}
    (hf : ∀ l c, (f l c).output = c.output) : LogCourse s (s.changeConditions i f).1 := by
  unfold State.changeConditions
  cases hl : s.live i with
  | none => exact .refl _
  | some l =>
    have changed : LogCourse s (s.setCustody i (f l l.custody)) := .setCustody hl (hf l _)
    dsimp only
    split
    · exact changed
    · exact changed.trans (course_evaluate _ i)

theorem output_recomputeL (link : Bool) (h limit : Nat) (c : Custody) :
    (c.recomputeL link h limit).output = c.output := by
  rw [recomputeL_eq]

theorem course_linkConditions (i : Slot) (s : State) : LogCourse s (s.linkConditions i) :=
  course_changeConditions s i fun _ c => by rw [output_recomputeL]; rfl

theorem course_custodyArrival (s : State) (h : Nat) (timeSet : Bool) (i : Slot) :
    LogCourse s (s.custodyArrival h timeSet i) :=
  course_changeConditions s i fun _ c => by
    dsimp only
    rw [output_recomputeL]
    split <;> rfl

/-! ## Misses and switch frames (R142 to R147, R158) -/

/-- A recorded miss; the fall to SAFE moves the output MAIN, under which no segment is open, to SAFE (R145). -/
theorem course_recordMiss (s : State) (i : Slot) (p : Option Port) (c : MissCause) :
    LogCourse s (s.recordMiss i p c) := by
  refine .onLive fun l hl => ?_
  cases l.custody.takeover with
  | none => exact .refl _
  | some t =>
    have missed : LogCourse s (s.reportChannel i .cueMissed p (.miss t.cue.number t.attempt c)) := course_report s _
    dsimp only
    split
    · rename_i falls
      simp only [Bool.and_eq_true, decide_eq_true_eq] at falls
      have live := live_reportChannel_self hl .cueMissed p (.miss t.cue.number t.attempt c)
      have move := LogMove.handover live { l.custody with output := .safe, custodian := none } .cueMiss
        (some t.cue.number) s.reference.h .noTimeline
      dsimp only at move
      rw [falls.1.1] at move
      rw [onLive_of_some live]
      exact .raised (.reported (missed.trans (.move move)) _ _ _ _)
    · exact missed

theorem course_endTakeover (s : State) (i : Slot) : LogCourse s (s.endTakeover i) := by
  refine .onLive fun l hl => ?_
  cases l.custody.takeover with
  | none => exact .refl _
  | some t => exact .raised (.setCustody hl (by rfl))

theorem course_miss (i : Slot) (left : Nat) (s : State) (p : Option Port) (c : MissCause) :
    LogCourse s (State.miss i left s p c) := by
  induction left generalizing s p c with
  | zero => exact (course_recordMiss s i p c).trans (course_endTakeover _ i)
  | succ left ih =>
    have missed := course_recordMiss s i p c
    unfold State.miss
    dsimp only
    cases hl : (s.recordMiss i p c).live i with
    | none => exact missed
    | some l =>
      dsimp only
      cases l.custody.takeover with
      | none => exact missed
      | some t =>
        dsimp only
        split
        · exact missed.trans (.setLive hl (by rfl))
        · exact (missed.trans (.setLive hl (by rfl))).trans (ih _ _ _)

theorem course_missCue (s : State) (i : Slot) (t : Takeover) (c : MissCause) : LogCourse s (s.missCue i t c) :=
  course_miss i _ s _ c

theorem course_switchTo {s : State} {i : Slot} {l : Live} (hl : s.live i = some l) (t : Takeover) :
    LogCourse s (s.switchTo i l t) :=
  .raised (.move (.handover hl _ _ _ _ _))

theorem course_takeSwitchFrame (s : State) (i : Slot) : LogCourse s (s.takeSwitchFrame i) := by
  refine .onLive fun l hl => ?_
  split
  · split
    · split
      · exact course_switchTo hl _
      · exact course_missCue s i _ _
      · exact course_missCue s i _ _
    · exact .refl _
  · exact .refl _

theorem course_takeReturnFrame (s : State) (i : Slot) : LogCourse s (s.takeReturnFrame i) := by
  refine .onLive fun l hl => ?_
  split
  · rename_i r _ _
    split
    · exact .raised (.move (.handover hl l.custody.returned .return_ none r.frame (l.cursor r.frame)))
    · exact .refl _
  · exact .refl _

theorem course_takeDue (i : Slot) (s : State) : LogCourse s (s.takeDue i) :=
  (course_takeSwitchFrame s i).trans (course_takeReturnFrame _ i)

theorem course_markDue (s : State) (h : Nat) (i : Slot) : LogCourse s (s.markDue h i) := by
  refine .onLive fun l hl => ?_
  split
  · split
    · exact .setCustody hl (by rfl)
    · exact .refl _
  · exact .refl _

/-! ## Ports lost and found (R124 to R127, R147, R156, R157, R209) -/

theorem course_withdrawReturn (s : State) (i : Slot) (p : Port) : LogCourse s (s.withdrawReturn i p) := by
  refine .onLive fun l hl => ?_
  cases l.custody.ret with
  | none => exact .refl _
  | some r => exact .raised (.recorded (.reported (.setCustody hl (by rfl)) _ _ _ _) _ _ _ _ _ _)

theorem course_linkWithdraws (i : Slot) (s : State) : LogCourse s (s.linkWithdraws i) := by
  unfold State.linkWithdraws
  split
  · exact course_withdrawReturn s i .L
  · exact .refl _

theorem course_targetLost {s : State} {i : Slot} {l : Live} (hl : s.live i = some l) (t : Takeover) :
    LogCourse s (s.targetLost i l t) := by
  unfold State.targetLost
  split
  · exact .setLive hl (by rfl)
  · exact course_missCue s i t _

theorem course_drLost (d : DrPort) (i : Slot) (s : State) : LogCourse s (s.drLost d i) := by
  refine .onLive fun l hl => ?_
  have absent : LogCourse s (s.reportChannel i .custodianAbsent (some (drPort d)) .none) := course_report s _
  dsimp only
  cases l.custody.state with
  | dr =>
    dsimp only
    split
    · split
      · exact absent.trans (course_enterTaking _ i _ _ _)
      · exact absent.recorded i _ _ _ _ _
    · exact .refl _
  | taking =>
    dsimp only
    cases l.custody.takeover with
    | none => exact .refl _
    | some t =>
      dsimp only
      split
      · exact course_targetLost hl t
      · split
        · exact absent
        · exact .refl _
  | returning =>
    dsimp only
    split
    · exact absent
    · exact .refl _
  | _ => exact .refl _

theorem course_drBack (d : DrPort) (i : Slot) (s : State) : LogCourse s (s.drBack d i) := by
  refine .onLive fun l _ => ?_
  split
  · exact course_enterTaking s i d .swap .now
  · exact .refl _

theorem course_presenceLost (s : State) (p : Port) : LogCourse s (s.presenceLost p) := by
  unfold State.presenceLost
  cases asDr p with
  | some d => exact .pass (course_drLost d) s
  | none =>
    exact ((LogCourse.pass course_linkWithdraws s).trans (course_report _ _)).trans (.pass course_linkConditions _)

theorem course_presenceBack (s : State) (p : Port) : LogCourse s (s.presenceBack p) := by
  unfold State.presenceBack
  cases asDr p with
  | some d => exact .pass (course_drBack d) s
  | none => exact .pass course_linkConditions s

theorem course_expirePresence (s : State) (p : Port) : LogCourse s (s.expirePresence p) := by
  unfold State.expirePresence
  split
  · exact .trans (.setPort (by rfl)) (course_presenceLost _ p)
  · exact .refl _

theorem course_restartPresence (s : State) (p : Port) : LogCourse s (s.restartPresence p) := .setPort (by rfl)

theorem course_arrive (s : State) (p : Port) : LogCourse s (s.arrive p) := by
  unfold State.arrive
  dsimp only
  split
  · exact course_restartPresence s p
  · exact (course_restartPresence s p).trans (course_presenceBack _ p)

/-! ## The resolver and the batch engine -/

theorem logFields_reResolve (l : Live) (p : ChannelParams) (h : Option Nat) :
    (l.reResolve p h).logFields = l.logFields := by
  obtain ⟨-, -, -, -, segment, latest, -⟩ := reResolve_rest l p h
  obtain ⟨n, t, custody⟩ := custody_reResolve l p h
  rw [Live.logFields, segment, latest, custody, Live.logFields]

theorem logFields_retire (l : Live) (p : ChannelParams) (h : Nat) : (l.retire p h).logFields = l.logFields := by
  unfold Live.retire
  dsimp only
  split
  · rfl
  · exact logFields_reResolve _ p _

theorem logFields_release (l : Live) (p : ChannelParams) (h : Option Nat) (tEnd : Nat) :
    (l.release p h tEnd).logFields = l.logFields := by
  unfold Live.release
  split
  · rfl
  · exact logFields_reResolve _ p h

theorem logFields_startHold (l : Live) (p : ChannelParams) (h : Option Nat) (id limit : Nat) :
    (l.startHold p h id limit).logFields = l.logFields :=
  logFields_reResolve _ p h

theorem logFields_resolverWork (l : Live) (p : ChannelParams) (h : Nat) (cur : Cursor) :
    (l.resolverWork p h cur).logFields = l.logFields := by
  have retired : (if l.inFlight then l else l.retire p h).logFields = l.logFields := by
    split
    · rfl
    · exact logFields_retire l p h
  exact retired

theorem course_resolverArrival (s : State) (h : Option Nat) (advancing : Bool) (i : Slot) :
    LogCourse s (s.resolverArrival h advancing i) := by
  cases hl : s.live i with
  | none => rw [State.resolverArrival, onLive_of_none hl]; exact .refl s
  | some l =>
    cases h with
    | none => rw [resolverArrival_none hl]; exact .setLive hl (by rfl)
    | some h =>
      rw [resolverArrival_some hl]
      have noticed : LogCourse s (if advancing && isDrOutput l.custody.output then
          s.notices i l l.followed (l.cursor h) h else s) := by
        split
        · rename_i on
          simp only [Bool.and_eq_true] at on
          exact course_notices hl on.2 _ _ h
        · exact .refl _
      exact noticed.trans (.onLive fun l1 h1 => .setLive h1 (logFields_resolverWork l1 _ h _))

theorem course_holdExpiry (s : State) (i : Slot) : LogCourse s (s.holdExpiry i) := by
  refine .onLive fun l hl => ?_
  split
  · split
    · exact .reported (.setLive hl (logFields_release l _ _ _)) _ _ _ _
    · exact .refl _
  · exact .refl _

theorem course_leaseExpiry (s : State) (i : Slot) : LogCourse s (s.leaseExpiry i) := by
  refine .onLive fun l hl => ?_
  split
  · split
    · exact .reported (.setLive hl (by rfl)) _ _ _ _
    · exact .refl _
  · exact .refl _

theorem course_leaseArrival (i : Slot) (s : State) : LogCourse s (s.leaseArrival i) := by
  refine .onLive fun l hl => ?_
  split
  · split
    · exact .setLive hl (by rfl)
    · exact .refl _
  · exact .refl _

/-! ## Completions (R102 to R105) -/

theorem course_beginCompletion {s : State} {i : Slot} {l : Live} (hl : s.live i = some l) (b : Batch) :
    LogCourse s (s.beginCompletion i l b) := by
  unfold State.beginCompletion
  split
  · exact .setLive hl (by rfl)
  · dsimp only
    split
    · exact .setLive hl (by rfl)
    · exact .reported (.setLive hl (by rfl)) _ _ _ _

theorem logFields_computeCue (l : Live) : l.computeCue.logFields = l.logFields := by
  unfold Live.computeCue
  split
  · split <;> rfl
  · rfl

theorem course_custodyCommit (s : State) (i : Slot) (p : Port) (staleChanged : Bool) :
    LogCourse s (s.custodyCommit i p staleChanged) := by
  refine .trans (course_changeConditions s i fun l c => ?_) (.onLive fun l hl => .setLive hl (logFields_computeCue l))
  have committed : (if p = .L then c.commitBehind l.sourceRev else c).output = c.output := by split <;> rfl
  dsimp only
  generalize (if p = .L then c.commitBehind l.sourceRev else c) = c1 at committed ⊢
  have recomputed (link : Bool) (h limit : Nat) :
      (if c1.behind = c.behind then c1 else c1.recomputeL link h limit).output = c.output := by
    split
    · exact committed
    · rw [output_recomputeL, committed]
  cases staleChanged with
  | false => exact recomputed _ _ _
  | true => exact recomputed _ _ _

theorem course_endCommit (s : State) (i : Slot) (b : Batch) (r : CommitResult) : LogCourse s (s.endCommit i b r) := by
  refine .onLive fun l hl => ?_
  have freed : LogCourse s (s.setLive i { l with batch := none, completion := none }) := .setLive hl (by rfl)
  dsimp only
  split
  · exact freed.repliedLater _ _ _ _ _
  · exact freed

theorem logFields_retireStage (l : Live) (p : ChannelParams) (h : Option Nat) (c : Completion) :
    (l.retireStage p h c).logFields = l.logFields := by
  cases h with
  | none => rfl
  | some h => exact logFields_retire _ p h

theorem course_commitStep (s : State) (i : Slot) : LogCourse s (s.commitStep i) := by
  rcases commitStep_cases s i with e | ⟨l, b, hl, -, -, ⟨-, e⟩ | ⟨c, -, ⟨es, -, e⟩ | ⟨-, e⟩ | ⟨-, e⟩⟩⟩ <;> rw [e]
  · exact .refl s
  · exact course_beginCompletion hl b
  · exact .setLive hl (logFields_reResolve _ _ _)
  · exact .setLive hl (logFields_retireStage l _ _ c)
  · exact .trans (.trans (.setLive hl (by rfl)) (course_custodyCommit _ i _ _)) (course_endCommit _ i b _)

theorem course_completeCommit (s : State) (i : Slot) (span : CompletionSpan) :
    LogCourse s (s.completeCommit i span) := by
  cases span with
  | oneStep => exact course_commitStep s i
  | whole =>
    exact (((course_commitStep s i).trans (course_commitStep _ i)).trans (course_commitStep _ i)).trans
      (course_commitStep _ i)

/-! ## A frame arrival (R3 to R8, R66, R68) -/

theorem course_settleDue (s : State) : LogCourse s s.settleDue :=
  (((((LogCourse.pass (fun i s => course_holdExpiry s i) s).trans (.pass course_takeDue _)).trans
    (.pass (fun i s => course_leaseExpiry s i) _)).trans (course_expirePresence _ .L)).trans
    (course_expirePresence _ .A)).trans (course_expirePresence _ .B)

theorem course_setReference (s : State) (r : Reference) : LogCourse s (s.setReference r) :=
  .of_live_eq rfl (by simp) (by simp)

theorem course_recordRefLost (s : State) (before : RefState) : LogCourse s (s.recordRefLost before) := by
  unfold State.recordRefLost
  split
  · exact course_report s _
  · exact .refl _

theorem course_referenceArrival (s : State) (moment : Nat) (src : ArrivalSource) :
    LogCourse s (s.referenceArrival moment src).1 := by
  have counted (r : Reference) : LogCourse s ((s.setReference r).recordRefLost s.reference.refState) :=
    (course_setReference s r).trans (course_recordRefLost _ _)
  cases hp : s.reference.pendingSet with
  | none => rw [referenceArrival_plain hp]; exact counted _
  | some ps =>
    cases ha : s.channelActive with
    | true => rw [referenceArrival_active hp ha]; exact (counted _).repliedLater _ _ _ _ _
    | false => rw [referenceArrival_applied hp ha]; exact (counted _).repliedLater _ _ _ _ _

theorem course_custodyNotes (s : State) (a : Arrival) (first : List Nat) : LogCourse s (s.custodyNotes a first) := by
  have decided : ∀ (ns : List Nat) (t : State),
      LogCourse t (ns.foldl (fun s n => onSlot n s fun i => s.takeDue i) t) := by
    intro ns
    induction ns with
    | nil => exact fun _ => .refl _
    | cons n ns ih => exact fun t => .trans (.onSlot fun i => course_takeDue i t) (ih _)
  unfold State.custodyNotes
  cases a.h with
  | none => exact .refl _
  | some h => exact (LogCourse.pass (fun i s => course_markDue s h i) s).trans (decided first _)

theorem course_presencePass (s : State) : LogCourse s s.presencePass := by
  have lowered (s : State) (p : Port) : LogCourse s (s.presenceArrival p) := .setPort (by rfl)
  exact ((lowered s .L).trans (lowered _ .A)).trans (lowered _ .B)

theorem course_deliverArrival (s : State) (moment : Nat) (src : ArrivalSource) (first : List Nat) :
    LogCourse s (s.deliverArrival moment src first) := by
  have counted := (course_settleDue s).trans (course_referenceArrival _ moment src)
  obtain ⟨⟨r, h, timeSet, advancing⟩, hr⟩ : ∃ r, s.settleDue.referenceArrival moment src = r := ⟨_, rfl⟩
  rw [hr] at counted
  have resolved (t : State) := LogCourse.pass (fun i s => course_resolverArrival s h advancing i) t
  cases h with
  | none =>
    rw [deliverArrival_of_none hr]
    exact ((counted.trans (resolved r)).trans (.pass course_leaseArrival _)).trans (course_presencePass _)
  | some h =>
    rw [deliverArrival_of_some hr]
    exact ((((counted.trans (course_custodyNotes r _ first)).trans (resolved _)).trans
      (.pass (fun i s => course_custodyArrival s h timeSet i) _)).trans (.pass course_leaseArrival _)).trans
      (course_presencePass _)

/-! ## A port reset (R211) -/

theorem logFields_withdrawReady (l : Live) (d : DrPort) : (l.withdrawReady d).logFields = l.logFields := by
  unfold Live.withdrawReady
  split
  · split <;> rfl
  · rfl

theorem logFields_portReset (l : Live) (p : Port) : (l.portReset p).logFields = l.logFields := by
  have withdrawn (l1 : Live) (freed : l1.logFields = l.logFields) :
      (match asDr p with
        | some d => l1.withdrawReady d
        | none => l1).logFields = l.logFields := by
    cases asDr p with
    | none => exact freed
    | some d => exact (logFields_withdrawReady l1 d).trans freed
  unfold Live.portReset
  refine withdrawn _ ?_
  split
  · split
    · split <;> rfl
    · rfl
  · rfl

/-- A port reset leaves the read mark as it is (R173, R211). -/
theorem course_resetPortOf (s : State) (p : Port) (r : Receive) : LogCourse s (s.resetPortOf p r) := by
  refine .trans (.trans (.setPort (by rfl)) (course_setReference _ _)) (.pass (fun i t => ?_) _)
  exact .onLive fun l hl => .setLive hl (logFields_portReset l p)

end Sys2Proof.Machine
end

section
/-! Every command but DEVICE RESET as a course of acts on the log, and the two laws of the log at every step (R163,
R165, R171 to R173). -/

namespace Sys2Proof.Machine

/-! ## Requests and their checks (R204 to R207) -/

/-- A command answers a next state, which a course of acts on the log leads to. -/
def CourseOf (s : State) (o : Answer) : Prop := ∃ t, o = .next t ∧ LogCourse s t

theorem CourseOf.next {s t : State} (h : LogCourse s t) : CourseOf s (.next t) := ⟨t, rfl, h⟩

theorem course_takeRequestWith {α : Type} (w : State → ReplyBody) (hd : Head) (code : Nat) (b : Body α)
    {act : α → State → State} (h : ∀ f u, LogCourse u (act f u)) (s : State) :
    LogCourse s (takeRequestWith w hd code b act s) := by
  have arrived := course_arrive s hd.port
  rcases takeRequestWith_cases w hd code b act s with e | e | e | ⟨f, -, e⟩ <;> rw [e]
  · exact .refl s
  · exact arrived.answered hd code _ _
  · exact arrived.answered hd code _ _
  · exact arrived.trans (h f _)

theorem course_conclude {α : Type} {s : State} {hd : Head} {code : Nat} {v : Verdict α} {k : α → State}
    (h : ∀ a, v = .ok a → LogCourse s (k a)) : LogCourse s (s.conclude hd code v k) := by
  cases v with
  | error e => exact (LogCourse.refl s).answered hd code _ _
  | ok a => exact h a rfl

/-- A request is its checks and, where they pass, its act. -/
theorem CourseOf.request {α β : Type} {s : State} {hd : Head} {code : Nat} {b : Body α} {check : α → State → Verdict β}
    {act : α → State → β → State} (h : ∀ f u a, check f u = .ok a → LogCourse u (act f u a)) :
    CourseOf s (.next (takeRequest hd code b (fun f u => u.conclude hd code (check f u) (act f u)) s)) :=
  .next (course_takeRequestWith _ hd code b (fun f u => course_conclude (h f u)) s)

/-- A request that no check refuses and that is answered at once. -/
theorem CourseOf.answer {α : Type} {s : State} {hd : Head} {code : Nat} {b : Body α} {st : α → State → Status}
    {body : α → State → ReplyBody} :
    CourseOf s (.next (takeRequest hd code b (fun f u => u.answer hd code (st f u) (body f u)) s)) :=
  .next (course_takeRequestWith _ hd code b (fun _ u => (LogCourse.refl u).answered hd code _ _) s)

theorem takingChannel_eq_ok {α : Type} {l : Live} {k : Takeover → Verdict α} {a : α} (h : takingChannel l k = .ok a) :
    ∃ t, k t = .ok a := by
  unfold takingChannel at h
  split at h
  · exact ⟨_, h⟩
  · cases h

theorem live_of_checkOpenBatch {s : State} {hd : Head} {f : OpenFields} {c : Slot × Live × BatchKind}
    (h : s.checkOpenBatch hd f = .ok c) : s.live c.1 = some c.2.1 := by
  obtain ⟨-, h⟩ := whenReady_eq_ok.1 h
  cases hk : f.kind with
  | none => simp [hk] at h
  | some k =>
    simp only [hk, refuseIf_eq_ok] at h
    obtain ⟨-, -, h⟩ := h
    obtain ⟨i, l, named, h⟩ := addressed_eq_ok.1 h
    simp only [refuseIf_eq_ok, refuseWith_eq_ok] at h
    obtain ⟨-, -, -, -, h⟩ := h
    cases h
    exact live_of_address named

theorem live_of_ownBatch {α : Type} {s : State} {hd : Head} {ch : Nat} {k : Slot → Live → Batch → Verdict α} {a : α}
    (h : s.ownBatch hd ch k = .ok a) : ∃ i l b, s.live i = some l ∧ k i l b = .ok a := by
  obtain ⟨-, h⟩ := whenReady_eq_ok.1 h
  obtain ⟨i, l, named, h⟩ := addressed_eq_ok.1 h
  split at h
  · cases h
  · exact ⟨i, l, _, live_of_address named, h⟩

theorem live_of_checkAbortBatch {s : State} {hd : Head} {ch : Nat} {c : Slot × Live}
    (h : s.checkAbortBatch hd ch = .ok c) : s.live c.1 = some c.2 := by
  obtain ⟨-, h⟩ := whenReady_eq_ok.1 h
  obtain ⟨i, l, named, h⟩ := addressed_eq_ok.1 h
  obtain ⟨-, h⟩ := refuseIf_eq_ok.1 h
  cases h
  exact live_of_address named

theorem live_of_checkCancelTake {s : State} {hd : Head} {ch : Nat} {c : Slot × Live × Takeover}
    (h : s.checkCancelTake hd ch = .ok c) : s.live c.1 = some c.2.1 := by
  obtain ⟨-, h⟩ := fromDr_eq_ok.1 h
  obtain ⟨i, l, named, h⟩ := addressed_eq_ok.1 h
  obtain ⟨t, h⟩ := takingChannel_eq_ok h
  cases h
  exact live_of_address named

theorem live_of_checkCueReady {s : State} {hd : Head} {f : ReadyFields} {c : Slot × Live × Takeover}
    (h : s.checkCueReady hd f = .ok c) : s.live c.1 = some c.2.1 := by
  obtain ⟨-, h⟩ := fromDr_eq_ok.1 h
  obtain ⟨i, l, named, h⟩ := addressed_eq_ok.1 h
  obtain ⟨t, h⟩ := takingChannel_eq_ok h
  simp only [refuseIf_eq_ok, refuseWith_eq_ok] at h
  obtain ⟨-, -, -, h⟩ := h
  cases h
  exact live_of_address named

theorem live_of_checkHold {s : State} {hd : Head} {ch : Nat} {c : Slot × Live × EventCursor}
    (h : s.checkHold hd ch = .ok c) : s.live c.1 = some c.2.1 := by
  obtain ⟨-, h⟩ := fromDr_eq_ok.1 h
  obtain ⟨i, l, named, h⟩ := addressed_eq_ok.1 h
  simp only [refuseIf_eq_ok] at h
  obtain ⟨-, -, -, h⟩ := h
  split at h
  · cases h
  · cases h
    exact live_of_address named

theorem live_of_checkRelease {s : State} {hd : Head} {f : ReleaseFields} {c : Slot × Live × Nat × Bool}
    (h : s.checkRelease hd f = .ok c) : s.live c.1 = some c.2.1 := by
  obtain ⟨-, h⟩ := fromDr_eq_ok.1 h
  obtain ⟨i, l, named, h⟩ := addressed_eq_ok.1 h
  simp only [refuseIf_eq_ok] at h
  obtain ⟨-, -, h⟩ := h
  split at h
  · cases h
  · cases h
    exact live_of_address named

theorem checkReturnFrame_channel {s : State} {i : Slot} {l : Live} {f : ReturnFields}
    {c : Slot × Live × Nat × Bool × EventCursor} (h : s.checkReturnFrame i l f = .ok c) : c.1 = i ∧ c.2.1 = l := by
  unfold State.checkReturnFrame at h
  split at h
  · cases h
  · simp only [refuseIf_eq_ok, refuseWith_eq_ok] at h
    obtain ⟨-, -, h⟩ := h
    split at h
    · cases h
    · cases h
      exact ⟨rfl, rfl⟩

theorem live_of_checkReturn {s : State} {hd : Head} {f : ReturnFields} {c : Slot × Live × Nat × Bool × EventCursor}
    (h : s.checkReturn hd f = .ok c) : s.live c.1 = some c.2.1 := by
  obtain ⟨-, h⟩ := refuseIf_eq_ok.1 h
  obtain ⟨i, l, named, h⟩ := addressed_eq_ok.1 h
  simp only [refuseIf_eq_ok] at h
  obtain ⟨-, -, -, -, h⟩ := h
  obtain ⟨slot, live⟩ := checkReturnFrame_channel h
  rw [slot, live]
  exact live_of_address named

/-! ## Events and lines (R5, R6, R21, R205, R212) -/

theorem courseOf_housePulse (moment : Nat) (first : List Nat) (s : State) :
    CourseOf s (execHousePulse moment first s) := by
  refine .next ?_
  split
  · exact course_deliverArrival s moment .pulse first
  · exact course_setReference s _

theorem courseOf_insertedArrival (moment : Nat) (first : List Nat) (s : State) :
    CourseOf s (execInsertedArrival moment first s) := by
  refine .next ?_
  split
  · exact course_deliverArrival s moment .timebase first
  · exact .refl s

theorem courseOf_badFrame (p : Port) (cause : BadFrameCause) (s : State) : CourseOf s (execBadFrame p cause s) := by
  refine .next ?_
  split
  · exact .trans (.replied (.setPort (by rfl)) _ _ _ _ _) (course_report _ _)
  · exact .refl s

theorem courseOf_lineBreak (p : Port) (s : State) : CourseOf s (execLineBreak p s) := by
  refine .next ?_
  split
  · exact .refl s
  · exact course_resetPortOf s p .inBreak

theorem courseOf_lineIdle (p : Port) (s : State) : CourseOf s (execLineIdle p s) := by
  refine .next ?_
  split
  · exact .setPort (by rfl)
  · exact .refl s

theorem courseOf_lineReturnsToMark (p : Port) (s : State) : CourseOf s (execLineReturnsToMark p s) := by
  refine .next ?_
  split
  · exact .setPort (by rfl)
  · exact .refl s

/-! ## Presence and port reset (R109, R210, R212) -/

theorem course_presenceEntries (es : List PresenceEntry) (r : State × Nat × Nat) :
    LogCourse r.1 (es.foldl State.presenceEntry r).1 := by
  induction es generalizing r with
  | nil => exact .refl r.1
  | cons e es ih =>
    have one : LogCourse r.1 (State.presenceEntry r e).1 := by
      unfold State.presenceEntry
      split
      · exact .onLive fun l hl => .setCustody hl (by rfl)
      · exact .refl r.1
    exact one.trans (ih _)

theorem course_linkPresence (s : State) (hd : Head) (b : Body (List PresenceEntry)) :
    LogCourse s (s.linkPresence hd b) := by
  have arrived := course_arrive s .L
  unfold State.linkPresence
  split
  · exact arrived.answered hd 1 _ _
  · split
    · exact arrived.answered hd 1 _ _
    · rename_i es _
      have entered := (course_restartPresence s .L).trans (course_presenceEntries es (s.restartPresence .L, 0, 0))
      exact (entered.trans (.pass course_linkConditions _)).answered hd 1 _ _

theorem courseOf_presence (hd : Head) (b : Body (List PresenceEntry)) (s : State) :
    CourseOf s (execPresence hd b s) := by
  refine .next ?_
  split
  · split
    · exact course_linkPresence s hd b
    · exact .refl s
  · exact course_takeRequestWith _ hd 1 _ (fun _ u => (LogCourse.refl u).answered hd 1 _ _) s

theorem courseOf_portReset (hd : Head) (b : Body Unit) (s : State) : CourseOf s (execPortReset hd b s) := by
  have arrived := course_arrive s hd.port
  refine .next ?_
  split
  · dsimp only
    split
    · exact arrived.answered hd 2 _ _
    · exact (arrived.trans (course_resetPortOf _ hd.port .hunting)).answered hd 2 _ _
  · exact .refl s

/-! ## The house and the Channel Table (R17, R182, R184 to R189) -/

theorem courseOf_setTime (hd : Head) (b : Body SchedTime) (s : State) : CourseOf s (execSetTime hd b s) :=
  .request fun _ u _ _ => (course_setReference u _).trans (.setPort (by rfl))

theorem courseOf_configureHouse (hd : Head) (b : Body HouseFields) (s : State) :
    CourseOf s (execConfigureHouse hd b s) :=
  .request fun _ u p _ =>
    have set : LogCourse u (u.setHouse p) := .of_live_eq rfl (fun q => by cases q <;> rfl) fun _ => rfl
    set.answered hd 4 _ _

theorem course_setParams (s : State) (i : Slot) (p : ChannelParams) : LogCourse s (s.setParams i p) :=
  .of_live_eq rfl (by simp) (by simp)

/-- A channel that enters service has no segment and no latest number (R188). -/
theorem course_enterService (s : State) (i : Slot) (p : ChannelParams) : LogCourse s (s.enterService i p) := by
  refine .raised (.move (.service (i := i) rfl (by simp) (fun j hj => by simp [hj]) fun l hl => ?_))
  rw [State.live_setChan_self] at hl
  cases hl
  exact ⟨rfl, rfl⟩

theorem course_forgetChannel (s : State) (i : Slot) (p : Port) : LogCourse s (s.forgetChannel i p) := .setPort (by rfl)

/-- The exit from service closes the segment first (R170, R189). -/
theorem course_leaveService (s : State) (i : Slot) (p : ChannelParams) : LogCourse s (s.leaveService i p) := by
  have closed := course_closeSegment s i s.reference.h
  have left : LogCourse (s.closeSegment i s.reference.h)
      ((s.closeSegment i s.reference.h).setChan i { params := p, live := none }) :=
    .move (.service (i := i) rfl (by simp) (fun j hj => by simp [hj]) fun l hl => by simp at hl)
  exact .raised ((((closed.trans left).trans (course_forgetChannel _ i .L)).trans (course_forgetChannel _ i .A)).trans
    (course_forgetChannel _ i .B))

theorem course_changeInPlace (s : State) (i : Slot) (p : ChannelParams) : LogCourse s (s.changeInPlace i p).1 := by
  have stored := course_setParams s i p
  have redrawn : LogCourse s (if p.guard = (s.params i).guard then s.setParams i p else
      onLive i (s.setParams i p) fun l => (s.setParams i p).setLive i (l.redraw p (s.setParams i p).houseFrame)) := by
    split
    · exact stored
    · exact stored.trans (.onLive fun l hl => .setLive hl (by rfl))
  unfold State.changeInPlace
  dsimp only
  split
  · exact redrawn
  · exact redrawn.trans (course_changeConditions _ i fun _ c => output_recomputeL _ _ _ c)

theorem course_configure (s : State) (hd : Head) (i : Slot) (p : ChannelParams) (enter : Bool) :
    LogCourse s (s.configure hd i p enter) := by
  unfold State.configure
  split
  · exact (course_setParams s i p).answered hd 5 _ _
  · exact (course_enterService s i p).answered hd 5 _ _
  · exact (course_changeInPlace s i p).answered hd 5 _ _
  · exact (course_leaveService s i p).answered hd 5 _ _

theorem courseOf_configureChannel (hd : Head) (b : Body ChannelFields) (s : State) :
    CourseOf s (execConfigureChannel hd b s) :=
  .request fun _ u c _ => course_configure u hd c.1 c.2.1 c.2.2

theorem courseOf_readChannel (hd : Head) (b : Body Nat) (s : State) : CourseOf s (execReadChannel hd b s) :=
  .request fun _ u _ _ => (LogCourse.refl u).answered hd 6 _ _

/-! ## Batches (R84 to R93) -/

theorem course_setBatch {s : State} {i : Slot} {l : Live} (hl : s.live i = some l) (b : Option Batch) :
    LogCourse s (s.setBatch i l b) :=
  .setLive hl (by rfl)

theorem courseOf_openBatch (hd : Head) (b : Body OpenFields) (s : State) : CourseOf s (execOpenBatch hd b s) :=
  .request fun _ _ _ passed => (course_setBatch (live_of_checkOpenBatch passed) _).answered hd 7 _ _

theorem courseOf_addEntries (hd : Head) (b : Body AddFields) (s : State) : CourseOf s (execAddEntries hd b s) :=
  .request fun f u c passed => by
    obtain ⟨i, l, b, hl, checked⟩ := live_of_ownBatch passed
    obtain ⟨-, checked⟩ := refuseIf_eq_ok.1 checked
    cases checked
    exact (course_setBatch hl _).answered hd 8 _ _

theorem courseOf_closeBatch (hd : Head) (b : Body CloseFields) (s : State) : CourseOf s (execCloseBatch hd b s) :=
  .request fun f u c passed => by
    obtain ⟨i, l, b, hl, checked⟩ := live_of_ownBatch passed
    cases checked
    exact (course_setBatch hl _).trans (.setPort (by rfl))

theorem courseOf_abortBatch (hd : Head) (b : Body Nat) (s : State) : CourseOf s (execAbortBatch hd b s) :=
  .request fun f u c passed => by
    split
    · exact (course_setBatch (live_of_checkAbortBatch passed) none).answered hd 10 _ _
    · exact (LogCourse.refl u).answered hd 10 _ _

/-! ## Reads of lists, cursors and custody (R35 to R37, R58, R129) -/

theorem course_readList (s : State) (hd : Head) (code : Nat) (i : Slot) (l : Live) (first count : Nat)
    (otherwise : Option ReadPos) : LogCourse s (s.readList hd code i l first count otherwise) :=
  .answered (.setPort (by rfl)) hd code _ _

theorem courseOf_readEvents (hd : Head) (b : Body ReadFields) (s : State) : CourseOf s (execReadEvents hd b s) :=
  .request fun _ u _ _ => course_readList u hd 11 _ _ _ _ _

theorem courseOf_readNextEvents (hd : Head) (b : Body Nat) (s : State) : CourseOf s (execReadNextEvents hd b s) :=
  .request fun _ u _ _ => course_readList u hd 12 _ _ _ _ _

theorem courseOf_readCursor (hd : Head) (b : Body CursorFields) (s : State) : CourseOf s (execReadCursor hd b s) :=
  .request fun _ u _ _ => (LogCourse.refl u).answered hd 13 _ _

theorem courseOf_matchChannels (hd : Head) (b : Body MatchFields) (s : State) :
    CourseOf s (execMatchChannels hd b s) :=
  .request fun _ u _ _ => (LogCourse.refl u).answered hd 23 _ _

/-! ## Custody and cues (R115, R120 to R122, R139, R140) -/

theorem courseOf_take (hd : Head) (b : Body TakeFields) (s : State) : CourseOf s (execTake hd b s) :=
  .request fun f u c _ => by
    refine (course_enterTaking u c.1 _ _ _).trans (.onLive fun l _ => ?_)
    split
    · exact (LogCourse.refl _).answered hd 14 _ _
    · exact .refl _

theorem courseOf_cancelTake (hd : Head) (b : Body Nat) (s : State) : CourseOf s (execCancelTake hd b s) :=
  .request fun _ _ _ passed =>
    have cancelled := LogCourse.setCustody (live_of_checkCancelTake passed) (by rfl)
    .answered (.raised (.recorded cancelled _ _ _ _ _ _)) hd 15 _ _

theorem courseOf_fetchCue (hd : Head) (b : Body Nat) (s : State) : CourseOf s (execFetchCue hd b s) :=
  .request fun _ u _ _ => (LogCourse.refl u).answered hd 16 _ _

theorem courseOf_cueReady (hd : Head) (b : Body ReadyFields) (s : State) : CourseOf s (execCueReady hd b s) :=
  .request fun _ _ _ passed => .answered (.setLive (live_of_checkCueReady passed) (by rfl)) hd 17 _ _

theorem course_evaluateAll (s : State) (is : List Slot) : LogCourse s (evaluateAll s is).1 := by
  induction is generalizing s with
  | nil => exact .refl s
  | cons i is ih => exact (course_evaluate s i).trans (ih _)

theorem course_combineArm (s : State) (op : ArmOp) (given : List Nat) : LogCourse s (s.combineArm op given) :=
  .pass (fun _ _ => .onLive fun _ hl => .setCustody hl (by rfl)) s

theorem courseOf_arm (hd : Head) (b : Body ArmFields) (s : State) : CourseOf s (execArm hd b s) :=
  .request fun f u op _ => ((course_combineArm u op f.slots).trans (course_evaluateAll _ _)).answered hd 22 _ _

/-! ## Holds and handback (R75 to R78, R150 to R156) -/

theorem courseOf_hold (hd : Head) (b : Body Nat) (s : State) : CourseOf s (execHold hd b s) :=
  .request fun _ _ _ passed =>
    .answered (.setLive (live_of_checkHold passed) (logFields_startHold _ _ _ _ _)) hd 18 _ _

theorem courseOf_releaseHold (hd : Head) (b : Body ReleaseFields) (s : State) : CourseOf s (execReleaseHold hd b s) :=
  .request fun f u c passed => by
    split
    · exact (LogCourse.refl u).answered hd 19 _ _
    · exact .answered (.setLive (live_of_checkRelease passed) (logFields_release _ _ _ _)) hd 19 _ _

theorem course_raiseReturnAt (s : State) (p : Option Port) : LogCourse s (s.raiseReturnAt p) := by
  cases p with
  | none => exact .refl s
  | some p => exact course_raise s p fun r => { r with returnPending := true }

theorem courseOf_handback (hd : Head) (b : Body ReturnFields) (s : State) : CourseOf s (execHandback hd b s) :=
  .request fun _ _ _ passed =>
    have accepted := LogCourse.setCustody (live_of_checkReturn passed) (by rfl)
    .answered (.raised (accepted.trans (course_raiseReturnAt _ _))) hd 20 _ _

theorem courseOf_cancelReturn (hd : Head) (b : Body Nat) (s : State) : CourseOf s (execCancelReturn hd b s) :=
  .request fun _ u c _ => (course_withdrawReturn u c.1 hd.port).answered hd 21 _ _

/-! ## The log, status and faults (R174 to R177, R199, R200, R203) -/

/-- The last entry examined is one of the entries. -/
theorem mem_of_examine {ok : LogEntry → Bool} {n m : Nat} {es : List LogEntry} (h : (examine ok n none es).2 = some m) :
    ∃ e ∈ es, e.seq = m := by
  rw [(examine_eq ok n none es).2] at h
  split at h
  · cases h
  · split at h
    · obtain ⟨e, last, same⟩ := Option.map_eq_some_iff.1 h
      exact ⟨e, (List.mem_filter.1 (List.mem_of_mem_take (List.mem_of_getLast? last))).1, same⟩
    · rw [Option.or_none] at h
      obtain ⟨e, last, same⟩ := Option.map_eq_some_iff.1 h
      exact ⟨e, List.mem_of_getLast? last, same⟩

/-- READ AS-RUN leaves the mark or moves it to the number of an entry it examined (R176). -/
theorem course_markAfter (s : State) (p : Port) (f : AsRunFields) :
    LogCourse s (s.setPort p { s.port p with mark := markAfter (s.port p) (s.examined p f).2 }) := by
  unfold markAfter
  split
  · cases hx : (s.examined p f).2 with
    | none => exact .setPort (by rfl)
    | some m =>
      obtain ⟨e, unread, same⟩ := mem_of_examine hx
      exact .move (.mark (.inr ⟨e, (List.mem_filter.1 unread).1, same⟩))
  · exact .setPort (by rfl)

theorem courseOf_readAsRun (hd : Head) (b : Body AsRunFields) (s : State) : CourseOf s (execReadAsRun hd b s) :=
  .next (course_takeRequestWith _ hd 24 b
    (fun f u => course_conclude fun _ _ => (course_markAfter u hd.port f).answered hd 24 _ _) s)

theorem courseOf_mark (hd : Head) (b : Body MarkFields) (s : State) : CourseOf s (execMark hd b s) :=
  .request fun f u _ _ =>
    .answered (.move (.mark (.inl (Nat.min_le_right f.value u.asRun.newest)))) hd 25 _ _

theorem courseOf_readStatus (hd : Head) (b : Body Unit) (s : State) : CourseOf s (execReadStatus hd b s) :=
  .next (course_takeRequestWith _ hd 26 b
    (fun _ u => ((LogCourse.refl u).answered hd 26 _ _).trans (course_raise _ _ _)) s)

theorem course_clear (s : State) (ns : List Nat) (capture : Bool) : LogCourse s (s.clear ns capture) := by
  have cleared : LogCourse s (forSlots (fun i s =>
      if i.val ∈ ns then onLive i s fun l => s.setLive i { l with flags := [] } else s) s) := by
    refine .pass (fun i t => ?_) s
    split
    · exact .onLive fun l hl => .setLive hl (by rfl)
    · exact .refl t
  unfold State.clear
  dsimp only
  split
  · exact cleared.trans (.of_live_eq rfl (fun q => by cases q <;> rfl) fun _ => rfl)
  · exact cleared

theorem courseOf_clearFaults (hd : Head) (b : Body ClearFields) (s : State) : CourseOf s (execClearFaults hd b s) :=
  .request fun f u c _ => (course_clear u f.slots c).answered hd 28 _ _

/-! ## Every command, and the laws at every step -/

/-- Every command but DEVICE RESET is a course of acts on the log. -/
theorem exec_courseOf (c : Instr) (s : State) (h : ∀ pins, c ≠ .deviceReset pins) : CourseOf s (exec c s) := by
  cases c with
  | deviceReset pins => exact absurd rfl (h pins)
  | storeInitialisationEnd => exact .next (.of_live_eq rfl (fun p => by cases p <;> rfl) fun _ => rfl)
  | housePulse moment first => exact courseOf_housePulse moment first s
  | insertedArrival moment first => exact courseOf_insertedArrival moment first s
  | holdLimit n => exact .next (.onSlot fun i => course_holdExpiry s i)
  | leaseExpired n => exact .next (.onSlot fun i => course_leaseExpiry s i)
  | presenceExpiry p => exact .next (course_expirePresence s p)
  | commitCompletion x => exact .next (.onSlot fun i => course_completeCommit s i x.span)
  | switchFrameReached n => exact .next (.onSlot fun i => course_takeSwitchFrame s i)
  | returnSwitchFrame n => exact .next (.onSlot fun i => course_takeReturnFrame s i)
  | badFrame p cause => exact courseOf_badFrame p cause s
  | lineBreak p => exact courseOf_lineBreak p s
  | unknownRequest hd code => exact .answer
  | presence hd b => exact courseOf_presence hd b s
  | portReset hd b => exact courseOf_portReset hd b s
  | setTime hd b => exact courseOf_setTime hd b s
  | configureHouse hd b => exact courseOf_configureHouse hd b s
  | configureChannel hd b => exact courseOf_configureChannel hd b s
  | readChannel hd b => exact courseOf_readChannel hd b s
  | openBatch hd b => exact courseOf_openBatch hd b s
  | addEntries hd b => exact courseOf_addEntries hd b s
  | closeBatch hd b => exact courseOf_closeBatch hd b s
  | abortBatch hd b => exact courseOf_abortBatch hd b s
  | readEvents hd b => exact courseOf_readEvents hd b s
  | readNextEvents hd b => exact courseOf_readNextEvents hd b s
  | readCursor hd b => exact courseOf_readCursor hd b s
  | take hd b => exact courseOf_take hd b s
  | cancelTake hd b => exact courseOf_cancelTake hd b s
  | fetchCue hd b => exact courseOf_fetchCue hd b s
  | cueReady hd b => exact courseOf_cueReady hd b s
  | hold hd b => exact courseOf_hold hd b s
  | releaseHold hd b => exact courseOf_releaseHold hd b s
  | handback hd b => exact courseOf_handback hd b s
  | cancelReturn hd b => exact courseOf_cancelReturn hd b s
  | arm hd b => exact courseOf_arm hd b s
  | matchChannels hd b => exact courseOf_matchChannels hd b s
  | readAsRun hd b => exact courseOf_readAsRun hd b s
  | mark hd b => exact courseOf_mark hd b s
  | readStatus hd b => exact courseOf_readStatus hd b s
  | readFaults hd b => exact CourseOf.answer
  | clearFaults hd b => exact courseOf_clearFaults hd b s
  | lineIdle p => exact courseOf_lineIdle p s
  | lineReturnsToMark p => exact courseOf_lineReturnsToMark p s

/-- A law that every act on the log keeps, and that holds of every state in which the part stands after reset, is kept
by every step. -/
theorem step_keeps {P : State → Prop} (moves : ∀ {s t}, LogMove s t → P s → P t)
    (reset : ∀ l a b pending, P { resetState l a b with pending := pending }) {s t : State} (law : P s)
    (h : step s = .next t) : P t := by
  unfold step at h
  cases hq : s.pending with
  | nil => rw [hq] at h; cases h; exact law
  | cons c rest =>
    simp only [hq] at h
    by_cases resets : ∃ pins, c = .deviceReset pins
    · obtain ⟨pins, rfl⟩ := resets
      cases h
      exact reset _ _ _ _
    · have taken : LogCourse s { s with pending := rest } :=
        .of_live_eq rfl (fun p => by cases p <;> rfl) fun _ => rfl
      obtain ⟨u, answered, course⟩ := exec_courseOf c { s with pending := rest } fun pins e => resets ⟨pins, e⟩
      rw [answered] at h
      cases h
      exact (taken.trans course).keeps moves law

theorem live_resetState (l a b : Nat) (pending : List Instr) (j : Slot) :
    State.live { resetState l a b with pending := pending } j = none := by
  simp [State.live, State.chan, resetState]

theorem segmentLaw_resetState (l a b : Nat) (pending : List Instr) :
    SegmentLaw { resetState l a b with pending := pending } := by
  intro j m hm
  rw [live_resetState] at hm
  cases hm

theorem ringLaw_empty : RingLaw { ring := [], nextSeq := some 1, dropped := 0 } :=
  ⟨by decide, rfl, by decide, .inl ⟨by decide, rfl⟩⟩

theorem logLaw_resetState (l a b : Nat) (pending : List Instr) :
    LogLaw { resetState l a b with pending := pending } := by
  refine ⟨ringLaw_empty, fun p => by cases p <;> exact Nat.le_refl 0, fun j m hm => ?_⟩
  rw [live_resetState] at hm
  cases hm

/-- Settles O13: every act on the log keeps R165, and a step is a reset or a course of such acts. -/
theorem stepsKeepSegmentsUnderDrOutputs : Obligations.StepsKeepSegmentsUnderDrOutputs := by
  unfold Obligations.StepsKeepSegmentsUnderDrOutputs
  intro s t law h
  exact step_keeps LogMove.segmentLaw segmentLaw_resetState law h

/-- Settles O15: every act on the log keeps it in sequence, and a step is a reset or a course of such acts. -/
theorem stepsKeepTheLogInSequence : Obligations.StepsKeepTheLogInSequence := by
  unfold Obligations.StepsKeepTheLogInSequence
  intro s t law h
  exact step_keeps LogMove.logLaw logLaw_resetState law h

end Sys2Proof.Machine
end

section
/-! The requests on the log: READ AS-RUN with its refusals, its examination and its read mark (R162, R174 to R176), and
MARK (R177, R178). -/

namespace Sys2Proof.Machine

/-! ## Requests that change their own port alone -/

/-- A request that moves fields of its own port and is answered at once changes nothing else, and its reply carries the
attention set that it leaves (R206, R215). -/
theorem portAnswered (s : State) (hd : Head) (u : PortUnit) (code : Nat) (st : Status) (body : ReplyBody) :
    let t := ((s.restartPresence hd.port).setPort hd.port u).answer hd code st body
    OnlyPort hd.port s t ∧
      t.port hd.port = { u with sent := u.sent ++ [⟨code, hd.tag, st, t.attention hd.port, body⟩] } := by
  dsimp only
  rw [answer_eq_reply, attention_reply, port_reply_self, State.port_setPort_self]
  exact ⟨by simp [OnlyPort, State.reply, State.restartPresence], rfl⟩

theorem port_restartPresence_self (s : State) (p : Port) :
    (s.restartPresence p).port p =
      { s.port p with receive := .hunting, presence := some (s.timeoutOf p) } :=
  State.port_setPort_self s p _

/-! ## MARK (R177, R178) -/

theorem exec_mark (hd : Head) (b : Body MarkFields) (s : State) : exec (.mark hd b) s = execMark hd b s := rfl

/-- The port of an accepted MARK: the clamped value and the follow flag, and its timer restarted. -/
def PortUnit.marked (u : PortUnit) (mark : Nat) (follow : Bool) : PortUnit := { u with mark := mark, follow := follow }

theorem execMark_of_known {s : State} {hd : Head} (ready : Ready s hd.port) (v : Nat) (b : Bool) :
    execMark hd (.fields ⟨v, some b⟩) s =
      .next (((s.restartPresence hd.port).setPort hd.port
        (((s.restartPresence hd.port).port hd.port).marked (min v s.asRun.newest) b)).answer hd 25
          (okOr (decide (s.asRun.newest < v))) (.marked (min v s.asRun.newest) b s.asRun.newest s.asRun.oldest)) := by
  rw [execMark, takeRequest_of_ready ready]
  simp only [conclude_ok, State.asRun_restartPresence, PortUnit.marked]

theorem okOr_clamped (v newest : Nat) :
    okOr (decide (newest < v)) = if v ≤ newest then .ok else .adjusted := by
  simp only [okOr, decide_eq_true_eq, ← Nat.not_le, ite_not]

/-- ASRUN_WAITING stands at a port exactly while its mark is below the newest number (R178). -/
theorem asRunWaiting_iff (s : State) (p : Port) :
    (s.attention p).asRunWaiting = true ↔ (s.port p).mark < s.asRun.newest := by
  simp [State.attention, State.asRunWaiting]

/-- Settles O57: the clamped mark is the lesser of the value and the newest number, and ASRUN_WAITING reads it. -/
theorem markIsClampedToTheNewest : Obligations.MarkIsClampedToTheNewest := by
  unfold Obligations.MarkIsClampedToTheNewest
  intro hd v s ready
  rw [exec_mark, execMark, takeRequest_of_ready ready]
  refine ⟨rfl, fun b => ?_⟩
  rw [exec_mark, execMark_of_known ready]
  obtain ⟨only, own⟩ := portAnswered s hd
    (((s.restartPresence hd.port).port hd.port).marked (min v s.asRun.newest) b) 25 (okOr (decide (s.asRun.newest < v)))
    (.marked (min v s.asRun.newest) b s.asRun.newest s.asRun.oldest)
  refine ⟨_, rfl, only, ?_, ?_⟩
  · rw [own, okOr_clamped, port_restartPresence_self, Nat.min_def]
    rfl
  · rw [asRunWaiting_iff, own, State.asRun_answer, State.asRun_setPort, State.asRun_restartPresence]
    show min v s.asRun.newest < s.asRun.newest ↔ v < s.asRun.newest
    omega

/-! ## The order of the log (R163, R174, R175) -/

/-- In a log in sequence the later entry has the greater number. -/
theorem RingLaw.ascending {r : AsRun} (law : RingLaw r) : r.ring.Pairwise fun a b => a.seq < b.seq := by
  obtain ⟨-, numbers, -, -⟩ := law
  have listed : (r.ring.map (·.seq)).Pairwise (· < ·) := numbers ▸ List.pairwise_lt_range'
  exact List.pairwise_map.1 listed

/-- The entries of a log above a read mark. -/
def AsRun.unread (r : AsRun) (mark : Nat) : List LogEntry := r.ring.filter fun e => decide (mark < e.seq)

/-- The last entry above a mark is the newest of the log. -/
theorem RingLaw.getLast?_unread {r : AsRun} (law : RingLaw r) {mark : Nat} {e : LogEntry}
    (last : (r.unread mark).getLast? = some e) : e.seq = r.newest := by
  have unread : e ∈ r.ring.filter fun e => decide (mark < e.seq) := List.mem_of_getLast? last
  obtain ⟨retained, above⟩ := List.mem_filter.1 unread
  obtain ⟨old, x, ring⟩ : ∃ old x, r.ring = old ++ [x] :=
    ⟨_, _, (List.dropLast_concat_getLast (List.ne_nil_of_mem retained)).symm⟩
  have newest : r.newest = x.seq := by simp [AsRun.newest, ring]
  have below := law.seq_le retained
  simp only [decide_eq_true_eq] at above
  have kept : mark < x.seq := by omega
  rw [AsRun.unread, ring, List.filter_append] at last
  simp only [List.filter_cons, kept, decide_true, if_true, List.filter_nil, List.getLast?_append,
    List.getLast?_singleton, Option.some_or, Option.some.injEq] at last
  rw [newest, last]

/-- Of ascending entries the last of the first `n` is below the last of all exactly where there are more. -/
theorem last_take_lt_iff {es : List LogEntry} (ascending : es.Pairwise fun a b => a.seq < b.seq) {n : Nat}
    {x y : LogEntry} (hx : (es.take n).getLast? = some x) (hy : es.getLast? = some y) :
    x.seq < y.seq ↔ (es.take n).length < es.length := by
  by_cases all : es.length ≤ n
  · rw [List.take_of_length_le all, hy] at hx
    cases hx
    simp [List.take_of_length_le all]
  · rw [← List.take_append_drop n es] at ascending
    obtain ⟨-, -, apart⟩ := List.pairwise_append.1 ascending
    have rest : es.drop n ≠ [] := by simpa using all
    have last : y ∈ es.drop n := by
      rw [← List.take_append_drop n es, List.getLast?_append, List.getLast?_eq_some_getLast rest,
        Option.some_or, ← List.getLast?_eq_some_getLast rest] at hy
      exact List.mem_of_getLast? hy
    have more : (es.take n).length < es.length := by rw [List.length_take]; omega
    exact iff_of_true (apart x (List.mem_of_getLast? hx) y last) more

/-! ## The examination (R175) -/

/-- Whether an examination that ended at `last` leaves entries of the log to examine (R175). -/
def AsRun.moreAfter (r : AsRun) (last : Option Nat) : Bool := last.any fun n => decide (n < r.newest)

theorem moreAfter_eq (r : AsRun) (last : Option Nat) :
    r.moreAfter last = match last with
      | some n => decide (n < r.newest)
      | none => false := by
  cases last <;> rfl

/-- In a log in sequence an examination of the first `n` unread entries leaves some exactly where there are more. -/
theorem RingLaw.moreAfter_take {r : AsRun} (law : RingLaw r) (mark : Nat) {n : Nat} (positive : n ≠ 0) :
    r.moreAfter (((r.unread mark).take n).getLast?.map (·.seq)) =
      decide (((r.unread mark).take n).length < (r.unread mark).length) := by
  cases hy : (r.unread mark).getLast? with
  | none => simp [AsRun.moreAfter, List.getLast?_eq_none_iff.1 hy]
  | some y =>
    cases hx : ((r.unread mark).take n).getLast? with
    | none =>
      have empty : (r.unread mark) = [] := by simpa [positive] using hx
      simp [empty] at hy
    | some x =>
      have ascending : (r.unread mark).Pairwise fun a b => a.seq < b.seq := law.ascending.filter _
      have order := last_take_lt_iff ascending hx hy
      rw [law.getLast?_unread hy] at order
      exact decide_eq_decide.2 order

/-- An examination of at least one entry: the first matching entries, and the last of them where the count is reached,
of all the unread entries where it is not. -/
theorem examined_eq (s : State) (p : Port) {count : Nat} (positive : 1 ≤ count) (set : SetField) :
    s.examined p ⟨count, set⟩ =
      let got := ((s.asRun.unread (s.port p).mark).filter (asRunMatches p set)).take (min count 16)
      (got, if got.length = min count 16 then got.getLast?.map (·.seq)
        else (s.asRun.unread (s.port p).mark).getLast?.map (·.seq)) := by
  have examines : min count 16 ≠ 0 := by omega
  obtain ⟨entries, last⟩ := examine_eq (asRunMatches p set) (min count 16) none (s.asRun.unread (s.port p).mark)
  rw [if_neg examines, Option.or_none] at last
  exact Prod.ext entries last

/-- Without a set every unread entry matches, and the examination ends at the last entry returned. -/
theorem examined_all (s : State) (p : Port) {count : Nat} (positive : 1 ≤ count) :
    s.examined p ⟨count, .all⟩ =
      let got := (s.asRun.unread (s.port p).mark).take (min count 16)
      (got, got.getLast?.map (·.seq)) := by
  have every : (s.asRun.unread (s.port p).mark).filter (asRunMatches p .all) = s.asRun.unread (s.port p).mark :=
    List.filter_eq_self.2 fun _ _ => rfl
  rw [examined_eq s p positive, every]
  dsimp only
  split
  · rfl
  · rename_i short
    rw [List.length_take] at short
    rw [List.take_of_length_le (by omega)]

/-! ## READ AS-RUN (R174 to R176) -/

theorem exec_readAsRun (hd : Head) (b : Body AsRunFields) (s : State) :
    exec (.readAsRun hd b) s = execReadAsRun hd b s := rfl

/-- A READ AS-RUN that meets a condition of R174 is refused with its status and the state of the log (R162). -/
theorem execReadAsRun_of_refused {s : State} {hd : Head} {f : AsRunFields} {st : Status} (ready : Ready s hd.port)
    (refused : asRunRefusal hd.port f = some st) :
    execReadAsRun hd (.fields f) s =
      .next ((s.restartPresence hd.port).reply hd.port 24 hd.tag st s.asRun.refusal) := by
  rw [execReadAsRun, takeRequestWith_of_ready _ ready, State.asRun_restartPresence,
    checkRead_eq_error.2 ⟨st, refused, rfl⟩, conclude_error, answer_eq_reply]

/-- One that meets none moves the mark as the examination says, and is answered with the record of R175. -/
theorem execReadAsRun_of_passed {s : State} {hd : Head} {f : AsRunFields} (ready : Ready s hd.port)
    (passed : asRunRefusal hd.port f = none) :
    let u := (s.restartPresence hd.port).port hd.port
    let x := (s.restartPresence hd.port).examined hd.port f
    execReadAsRun hd (.fields f) s =
      .next (((s.restartPresence hd.port).setPort hd.port { u with mark := markAfter u x.2 }).answer hd 24
        (okOr (decide (16 < f.count))) (.asRun ((s.restartPresence hd.port).asRunReport hd.port f))) := by
  dsimp only
  rw [execReadAsRun, takeRequestWith_of_ready _ ready, checkRead_eq_ok.2 passed, conclude_ok]

@[simp] theorem mark_restartPresence (s : State) (p q : Port) :
    ((s.restartPresence p).port q).mark = (s.port q).mark := by
  by_cases own : q = p
  · subst own; rw [port_restartPresence_self]
  · rw [State.restartPresence, State.port_setPort_ne s _ own]

@[simp] theorem examined_restartPresence (s : State) (p q : Port) (f : AsRunFields) :
    (s.restartPresence p).examined q f = s.examined q f := by
  simp [State.examined]

theorem overwritten_eq (r : AsRun) (mark : Nat) :
    r.overwritten mark = match r.oldest with
      | some o => if mark + 1 < o then o - (mark + 1) else 0
      | none => 0 := by
  unfold AsRun.overwritten
  cases r.oldest with
  | none => rfl
  | some o => dsimp only; split <;> omega

/-- The record of R175 for the entries and the end of an examination. -/
def State.asRunRecord (s : State) (p : Port) (got : List LogEntry) (last : Option Nat) : AsRunReport where
  entries := got.map reportEntry
  returned := got.length
  overwritten := s.asRun.overwritten (s.port p).mark
  lastExamined := last
  mark := markAfter (s.port p) last
  follow := (s.port p).follow
  newest := s.asRun.newest
  oldest := s.asRun.oldest
  full := s.asRun.full
  dropped := s.asRun.dropped
  more := s.asRun.moreAfter last

theorem asRunReport_restartPresence {s : State} {p : Port} {f : AsRunFields} {got : List LogEntry} {last : Option Nat}
    (examined : s.examined p f = (got, last)) :
    (s.restartPresence p).asRunReport p f = s.asRunRecord p got last := by
  unfold State.asRunReport State.asRunRecord
  rw [examined_restartPresence, examined, State.asRun_restartPresence, port_restartPresence_self]
  cases last <;> rfl

/-- An accepted READ AS-RUN returns what its examination gives, under the record of R175. -/
theorem asRunAnswered_of_examined {s : State} {hd : Head} {count : Nat} {set : SetField} (ready : Ready s hd.port)
    (passed : asRunRefusal hd.port ⟨count, set⟩ = none) {got : List LogEntry} {last : Option Nat}
    (examined : s.examined hd.port ⟨count, set⟩ = (got, last)) {more : Bool} (rest : s.asRun.moreAfter last = more) :
    AsRunAnswered hd count set s got last more := by
  have answered := execReadAsRun_of_passed (f := ⟨count, set⟩) ready passed
  dsimp only at answered
  rw [examined_restartPresence, examined, asRunReport_restartPresence examined] at answered
  obtain ⟨only, own⟩ := portAnswered s hd
    { (s.restartPresence hd.port).port hd.port with
      mark := markAfter ((s.restartPresence hd.port).port hd.port) last } 24 (okOr (decide (16 < count)))
    (.asRun (s.asRunRecord hd.port got last))
  refine ⟨_, answered, only, ?_⟩
  rw [own, port_restartPresence_self, State.asRunRecord, overwritten_eq, rest, okOr]
  simp only [decide_eq_true_eq]
  rfl

/-! ## The conditions of R174 -/

theorem asRunRefusal_of_count {count : Nat} (positive : 1 ≤ count) (p : Port) (set : SetField) :
    asRunRefusal p ⟨count, set⟩ = setRefusal p set :=
  if_neg (show ¬count = 0 by omega)

/-- A set that R174 refuses BAD_FIELD is refused so whatever the count. -/
theorem asRunRefusal_of_badSet {p : Port} {set : SetField} (bad : setRefusal p set = some .badField) (count : Nat) :
    asRunRefusal p ⟨count, set⟩ = some .badField := by
  rw [asRunRefusal, bad, ite_self]

theorem setRefusal_of_length {ms : List Nat} (h : ms.length = 0 ∨ 32 < ms.length) (p : Port) :
    setRefusal p (.members ms) = some .badField := by
  have outside : within 1 32 ms.length = false := by
    simp only [within, Bool.and_eq_false_iff, decide_eq_false_iff_not]
    omega
  simp [setRefusal, outside]

/-- Port L may not name the service ID 0. -/
theorem setRefusal_link {ms : List Nat} (h : 0 ∈ ms) : setRefusal .L (.members ms) = some .badField := by
  simp [setRefusal, h]

/-- A set of 1 to 32 members from which Port L leaves 0 out is refused where Port A or B names a slot above 31. -/
theorem setRefusal_members {p : Port} {ms : List Nat} (named : 1 ≤ ms.length) (few : ms.length ≤ 32)
    (service : p = .L → 0 ∉ ms) :
    setRefusal p (.members ms) = if p ≠ .L ∧ ∃ n ∈ ms, 31 < n then some .unknownChannel else none := by
  have inside : within 1 32 ms.length = true := by simp [within, named, few]
  simpa [setRefusal, inside] using service

/-- Settles O56: an accepted request by its examination, a refused one by the first condition of R174 that it meets. -/
theorem readAsRunReadsAboveTheMark : Obligations.ReadAsRunReadsAboveTheMark := by
  unfold Obligations.ReadAsRunReadsAboveTheMark
  refine ⟨fun hd count s ready law positive => ?_, fun hd count ms s ready positive named few service channels => ?_,
    fun hd count set s ready => ?_⟩
  · exact asRunAnswered_of_examined ready (asRunRefusal_of_count positive hd.port .all)
      (examined_all s hd.port positive) (law.1.moreAfter_take _ (by omega))
  · have allowed : ¬(hd.port ≠ .L ∧ ∃ n ∈ ms, 31 < n) := fun ⟨dr, n, member, above⟩ =>
      Nat.not_lt.2 (channels dr n member) above
    have passed : asRunRefusal hd.port ⟨count, .members ms⟩ = none := by
      rw [asRunRefusal_of_count positive, setRefusal_members named few service, if_neg allowed]
    dsimp only
    exact asRunAnswered_of_examined ready passed (examined_eq s hd.port positive (.members ms)) (moreAfter_eq _ _)
  · have refused {st : Status} (h : asRunRefusal hd.port ⟨count, set⟩ = some st) :
        exec (.readAsRun hd (.fields ⟨count, set⟩)) s =
          .next ((s.restartPresence hd.port).reply hd.port 24 hd.tag st s.asRun.refusal) := by
      rw [exec_readAsRun, execReadAsRun_of_refused ready h]
    refine ⟨fun zero => refused (by rw [zero]; rfl), fun bad => refused ?_, fun ms members =>
      ⟨fun outside => refused ?_, fun link zero => refused ?_, fun positive named few dr above => refused ?_⟩⟩
    · rw [bad]; exact asRunRefusal_of_badSet rfl count
    · rw [members]; exact asRunRefusal_of_badSet (setRefusal_of_length outside hd.port) count
    · rw [members, link]; exact asRunRefusal_of_badSet (setRefusal_link zero) count
    · rw [members, asRunRefusal_of_count positive, setRefusal_members named few fun link => absurd link dr,
        if_pos ⟨dr, above⟩]

end Sys2Proof.Machine
end

section
/-! Fault reports with their flags, capture and FAULT (R194 to R197), and the requests READ STATUS (R203) and CLEAR
FAULTS (R200). -/

namespace Sys2Proof.Machine

/-! ## A report taken whole (R194 to R197) -/

theorem capture_report (s : State) (r : FaultReport) :
    (s.report r).capture =
      captureReport s.house.freeze r (r.slot.map fun i => (i.val, s.service i)) s.capture := by
  unfold State.report
  dsimp only
  split
  · rw [State.capture_raiseFault]
  · rfl

/-- A report changes the flag set it names or the capture record (R194). -/
def State.changedBy (s : State) (r : FaultReport) : Prop := s.flagged r = false ∨ (s.report r).capture ≠ s.capture

/-- A report raises FAULT at all three ports exactly where it changes the flag set it names or the capture record. -/
theorem reasons_report (s : State) (r : FaultReport) (q : Port) :
    (s.changedBy r → ((s.report r).port q).reasons.fault = true) ∧
    (¬s.changedBy r → ((s.report r).port q).reasons = (s.port q).reasons) := by
  have untouched (c : Option Capture) : State.port { s.flagReport r with capture := c } q = s.port q := by
    obtain ⟨-, -, -, -, -, -, -, ports⟩ := flagReport_rest s r
    rw [← ports q]
    cases q <;> rfl
  rw [State.changedBy, capture_report]
  unfold State.report
  dsimp only
  split
  case isTrue changed =>
    refine ⟨fun _ => by rw [port_reasons_raiseFault], fun same => absurd ?_ same⟩
    simpa using changed
  case isFalse same =>
    refine ⟨fun changed => absurd ?_ same, fun _ => by rw [untouched]⟩
    simpa using changed

/-- The record after a report while one stands: the repeat flag on a report of its class; the new fault where its
class is of higher priority and the freeze option is off (R197). -/
theorem captureReport_some (freeze : Bool) (r : FaultReport) (channel : Option (Nat × Nat)) (c : Capture) :
    captureReport freeze r channel (some c) =
      if c.cls = r.cls then some { c with repeated := true }
      else if priority r.cls < priority c.cls ∧ freeze = false then
        some ⟨r.cls, channel, r.port, r.frame, r.detail, false, false⟩
      else some c := by
  simp [captureReport]

/-- Settles O59, by what a report leaves of each flag set, of the capture record and of each port's reasons. -/
theorem reportsFlagAndCapture : Obligations.ReportsFlagAndCapture := by
  unfold Obligations.ReportsFlagAndCapture
  rintro r s - rfl
  refine ⟨by simp [SystemKept], port_report s r, State.asRun_report s r, fun i l hl => ?_,
    fun x fs => mem_addFlag r.cls x fs, houseFlags_report s r, fun empty => ?_, fun c captured => ?_,
    fun changed q => (reasons_report s r q).1 changed, fun flagged stands q => (reasons_report s r q).2 ?_⟩
  · rw [live_report, hl, Option.map_some, reportedFlags]
    split <;> rfl
  · rw [capture_report, empty, captureReport]
  · rw [capture_report, captured, captureReport_some]
  · simp [State.changedBy, flagged, stands]

/-! ## READ STATUS (R203) -/

theorem exec_readStatus (hd : Head) (b : Body Unit) (s : State) : exec (.readStatus hd b) s = execReadStatus hd b s :=
  rfl

theorem anyFlag_iff (s : State) :
    s.anyFlag = true ↔ s.houseFlags ≠ [] ∨ ∃ i l, s.live i = some l ∧ l.flags ≠ [] := by
  simp [State.anyFlag, mem_inService]

theorem length_inService (s : State) : s.inService.length = (slots.filter fun i => (s.live i).isSome).length := by
  rw [State.inService, List.length_filterMap_eq_countP, List.countP_eq_length_filter]
  simp

/-- What READ STATUS reports does not depend on the restart of a presence timer. -/
theorem statusReport_restartPresence (s : State) (p q : Port) :
    (s.restartPresence p).statusReport q = s.statusReport q := by
  simp [State.statusReport, State.anyFlag]

/-- The port after an accepted READ STATUS: the reply sent, with the attention set as it stood, and then the event
reasons cleared in the same act. -/
def State.statusRead (s : State) (hd : Head) : PortUnit :=
  { s.port hd.port with
    receive := .hunting
    presence := some (s.timeoutOf hd.port)
    reasons := ⟨false, false, false, false⟩
    sent := (s.port hd.port).sent ++
      [⟨26, hd.tag, .ok, s.attention hd.port, .status (s.statusReport hd.port)⟩] }

theorem execReadStatus_of_ready {s : State} {hd : Head} (ready : Ready s hd.port) :
    execReadStatus hd (.fields ()) s = .next (s.setPort hd.port (s.statusRead hd)) := by
  rw [execReadStatus, takeRequest_of_ready ready, statusReport_restartPresence, answer_eq_reply, State.raise,
    port_reply_self, attention_restartPresence, port_restartPresence_self, State.reply, State.restartPresence,
    State.setPort_setPort, State.setPort_setPort, State.statusRead]

/-- The condition reasons of a port hold of the channels, of the log and of its mark alone (R138, R178, R201). -/
theorem conditions_setPort (s : State) (p : Port) {u : PortUnit} (mark : u.mark = (s.port p).mark) :
    ((s.setPort p u).attention p).cuePending = (s.attention p).cuePending ∧
    ((s.setPort p u).attention p).asRunWaiting = (s.attention p).asRunWaiting := by
  simp [State.attention, State.cuePending, State.asRunWaiting, mark]

/-- Settles O58: the whole next state is the port's own, and each item of the report is the state's. -/
theorem readStatusClearsEventReasons : Obligations.ReadStatusClearsEventReasons := by
  unfold Obligations.ReadStatusClearsEventReasons
  intro hd s ready
  rw [exec_readStatus, execReadStatus_of_ready ready]
  obtain ⟨cuePending, asRunWaiting⟩ := conditions_setPort s hd.port (u := s.statusRead hd) rfl
  refine ⟨_, s.statusReport hd.port, rfl, ?_, State.port_setPort_self s hd.port _, cuePending, asRunWaiting, rfl, rfl,
    ?_, rfl, rfl, rfl, rfl, anyFlag_iff s, length_inService s⟩
  · rw [OnlyPort, State.port_setPort_self]
  · rw [State.statusReport, State.reportedH, State.houseFrame]
    split <;> rfl

/-! ## CLEAR FAULTS (R200) -/

theorem exec_clearFaults (hd : Head) (b : Body ClearFields) (s : State) :
    exec (.clearFaults hd b) s = execClearFaults hd b s := rfl

@[simp] theorem inFlightAt_restartPresence (s : State) (p : Port) (n : Nat) :
    (s.restartPresence p).inFlightAt n = s.inFlightAt n := by
  have channels : (s.restartPresence p).live = s.live := funext (State.live_restartPresence s p)
  rw [State.inFlightAt, channels, State.inFlightAt]

/-- The checks of CLEAR FAULTS from an automation port, on slots that exist and a capture setting: the first named slot
with a commit in flight refuses it (R200). -/
theorem checkClearFaults_of_named {s : State} {hd : Head} {ns : List Nat} (dr : hd.port ≠ .L) (few : ns.length ≤ 32)
    (named : ∀ n ∈ ns, n ≤ 31) (capture : Bool) :
    s.checkClearFaults hd ⟨ns, some capture⟩ =
      (ns.find? s.inFlightAt).elim (.ok capture) fun n => .error (.busy, .busySlot n) := by
  have known : (ns.any fun n => decide (31 < n)) = false := by simpa using named
  rw [State.checkClearFaults, fromDr, decide_eq_false dr, refuseIf_false, decide_eq_false (Nat.not_lt.2 few),
    refuseIf_false]
  dsimp only
  rw [known, refuseIf_false]
  cases ns.find? s.inFlightAt <;> rfl

/-- The flag set of one named channel emptied. -/
def clearFlagsAt (ns : List Nat) (i : Slot) (s : State) : State :=
  if i.val ∈ ns then onLive i s fun l => s.setLive i { l with flags := [] } else s

/-- The flag sets of the named channels emptied, in slot order. -/
def State.clearFlags (s : State) (ns : List Nat) : State := forSlots (clearFlagsAt ns) s

/-- What the emptying leaves a channel: its flag set empty where it is named. -/
def clearedFlags (ns : List Nat) (i : Slot) (l : Live) : Live :=
  { l with flags := if i.val ∈ ns then [] else l.flags }

theorem live_clearFlagsAt_self (ns : List Nat) (i : Slot) (s : State) :
    (clearFlagsAt ns i s).live i = (s.live i).map (clearedFlags ns i) := by
  unfold clearFlagsAt clearedFlags
  split
  · cases hl : s.live i <;> simp [hl]
  · simp

theorem live_clearFlagsAt_ne (ns : List Nat) {i j : Slot} (other : i ≠ j) (s : State) :
    (clearFlagsAt ns j s).live i = s.live i := by
  unfold clearFlagsAt
  split
  · exact onLive_induct (P := fun t => t.live i = s.live i) (fun _ => rfl)
      fun l _ => State.live_setLive_ne s _ other
  · rfl

theorem live_clearFlags (s : State) (ns : List Nat) (i : Slot) :
    (s.clearFlags ns).live i = (s.live i).map (clearedFlags ns i) :=
  forSlots_at (P := fun t => t.live i = s.live i) (Q := fun t => t.live i = (s.live i).map (clearedFlags ns i)) i
    (fun _ t other same => (live_clearFlagsAt_ne ns other.symm t).trans same)
    (fun t same => by rw [live_clearFlagsAt_self, same])
    (fun _ t other same => (live_clearFlagsAt_ne ns other.symm t).trans same) rfl

theorem params_clearFlags (s : State) (ns : List Nat) (i : Slot) : (s.clearFlags ns).params i = s.params i := by
  refine forSlots_induct (P := fun t => t.params i = s.params i) (fun j t same => ?_) rfl
  unfold clearFlagsAt
  split
  · exact onLive_induct (P := fun u => u.params i = s.params i) (fun _ => same)
      fun l _ => (State.params_setLive t j i _).trans same
  · exact same

/-- `t` differs from `s` in the Channel Table at most. -/
def OnlyChannels (s t : State) : Prop := t = { s with channels := t.channels }

theorem OnlyChannels.setLive {s t : State} (h : OnlyChannels s t) (i : Slot) (l : Live) :
    OnlyChannels s (t.setLive i l) := by
  unfold OnlyChannels
  exact congrArg (fun u : State => { u with channels := (t.setLive i l).channels }) h

theorem onlyChannels_clearFlags (s : State) (ns : List Nat) : OnlyChannels s (s.clearFlags ns) := by
  refine forSlots_induct (P := OnlyChannels s) (fun j t only => ?_) rfl
  unfold clearFlagsAt
  split
  · exact onLive_induct (fun _ => only) fun l _ => only.setLive j _
  · exact only

/-- The acts of an accepted CLEAR FAULTS in full: channels, capture record and house flag set (R200). -/
theorem clear_eq (s : State) (ns : List Nat) (capture : Bool) :
    s.clear ns capture = { s with
      channels := (s.clearFlags ns).channels
      capture := if capture then none else s.capture
      houseFlags := if capture then [] else s.houseFlags } := by
  have only := onlyChannels_clearFlags s ns
  cases capture
  · exact only
  · exact congrArg (fun u : State => { u with capture := none, houseFlags := [] }) only

theorem live_clear (s : State) (ns : List Nat) (capture : Bool) (i : Slot) :
    (s.clear ns capture).live i = (s.live i).map (clearedFlags ns i) := by
  rw [clear_eq, ← live_clearFlags]
  rfl

theorem params_clear (s : State) (ns : List Nat) (capture : Bool) (i : Slot) :
    (s.clear ns capture).params i = s.params i := by
  rw [clear_eq, ← params_clearFlags s ns i]
  rfl

theorem port_clear (s : State) (ns : List Nat) (capture : Bool) (q : Port) :
    (s.clear ns capture).port q = s.port q := by
  rw [clear_eq]
  cases q <;> rfl

/-- The reply to CLEAR FAULTS names each named slot that is in service. -/
theorem mem_clearedSlots {s : State} {ns : List Nat} {n : Nat} :
    n ∈ s.clearedSlots ns ↔ n ∈ ns ∧ ∃ i : Slot, i.val = n ∧ (s.live i).isSome = true := by
  simp only [State.clearedSlots, List.mem_filter, List.mem_map, Prod.exists, mem_inService, decide_eq_true_eq,
    Option.isSome_iff_exists]
  constructor
  · rintro ⟨⟨i, l, hl, same⟩, member⟩
    exact ⟨member, i, same, l, hl⟩
  · rintro ⟨member, i, same, l, hl⟩
    exact ⟨⟨i, l, hl, same⟩, member⟩

/-- Settles O60: the search for a commit in flight decides the check, and the acts are the whole next state. -/
theorem clearFaultsClearsTheNamed : Obligations.ClearFaultsClearsTheNamed := by
  unfold Obligations.ClearFaultsClearsTheNamed
  intro hd ns capture s ready dr few named
  rw [exec_clearFaults, execClearFaults, takeRequest_of_ready ready, checkClearFaults_of_named dr few named]
  refine ⟨fun before n after split busy clean => ?_, fun clean => ?_⟩
  · have first : ns.find? (s.restartPresence hd.port).inFlightAt = some n :=
      List.find?_eq_some_iff_append.2 ⟨by simpa using busy, before, after, split, by simpa using clean⟩
    rw [first]
    rfl
  · have passed : ns.find? (s.restartPresence hd.port).inFlightAt = none := by simpa using clean
    rw [passed]
    have kept : PortsKept (s.restartPresence hd.port) ((s.restartPresence hd.port).clear ns capture) := fun q => by
      rw [port_clear]
    refine ⟨_, (s.restartPresence hd.port).clearedSlots ns, rfl, fun i l hl => ?_, fun i hl => ?_, fun i => ?_, ?_,
      ?_, ?_, ?_, fun q => ?_, fun n => ?_, kept.replied 28 .ok _⟩
    · simp [live_clear, hl, clearedFlags]
    · simp [live_clear, hl]
    · simp [params_clear]
    · simp [clear_eq]
    · simp [clear_eq]
    · simp [clear_eq, SystemKept]
    · simp [clear_eq]
    · simp [port_clear]
    · simp [mem_clearedSlots]

end Sys2Proof.Machine
end

section
/-! The queue and the lines: no act of the part but the taking of a request, an expiry of presence and an arrival moves
a receive line or a presence timer, and none moves the queue (R204, R206, R208). -/

namespace Sys2Proof.Machine

/-! ## The queue, the receive lines and the presence timers -/

/-- The queue, and where the receive line and the presence timer of each Port Unit stand. -/
def State.lines (s : State) : List Instr × (Port → Receive × Option Nat) :=
  (s.pending, fun p => ((s.port p).receive, (s.port p).presence))

theorem lines_eq {s t : State} (queue : t.pending = s.pending)
    (ports : ∀ p, (t.port p).receive = (s.port p).receive ∧ (t.port p).presence = (s.port p).presence) :
    t.lines = s.lines := by
  refine Prod.ext queue (funext fun p => ?_)
  obtain ⟨receive, presence⟩ := ports p
  exact Prod.ext receive presence

theorem pending_of_lines {s t : State} (h : t.lines = s.lines) : t.pending = s.pending :=
  congrArg Prod.fst h

theorem receive_of_lines {s t : State} (h : t.lines = s.lines) (p : Port) :
    (t.port p).receive = (s.port p).receive :=
  congrArg (fun x => (x.2 p).1) h

theorem presence_of_lines {s t : State} (h : t.lines = s.lines) (p : Port) :
    (t.port p).presence = (s.port p).presence :=
  congrArg (fun x => (x.2 p).2) h

/-! ## Writes of the state -/

@[simp] theorem lines_setPort {s : State} {p : Port} {u : PortUnit} (receive : u.receive = (s.port p).receive)
    (presence : u.presence = (s.port p).presence) : (s.setPort p u).lines = s.lines := by
  refine lines_eq (by simp) fun q => ?_
  rw [State.port_setPort]
  split
  · rename_i own; subst own; exact ⟨receive, presence⟩
  · exact ⟨rfl, rfl⟩

@[simp] theorem lines_setChan (s : State) (i : Slot) (c : Channel) : (s.setChan i c).lines = s.lines :=
  lines_eq rfl (by simp)

@[simp] theorem lines_setLive (s : State) (i : Slot) (l : Live) : (s.setLive i l).lines = s.lines :=
  lines_setChan s i _

@[simp] theorem lines_setParams (s : State) (i : Slot) (p : ChannelParams) : (s.setParams i p).lines = s.lines :=
  lines_setChan s i _

@[simp] theorem lines_setReference (s : State) (r : Reference) : (s.setReference r).lines = s.lines :=
  lines_eq rfl (by simp)

@[simp] theorem lines_raise (s : State) (p : Port) (f : EventReasons → EventReasons) : (s.raise p f).lines = s.lines :=
  lines_setPort rfl rfl

@[simp] theorem lines_raiseCustodyChanged (s : State) : s.raiseCustodyChanged.lines = s.lines := by
  simp [State.raiseCustodyChanged]

@[simp] theorem lines_raisePolicyNotice (s : State) : s.raisePolicyNotice.lines = s.lines := by
  simp [State.raisePolicyNotice]

@[simp] theorem lines_report (s : State) (r : FaultReport) : (s.report r).lines = s.lines :=
  lines_eq (by simp) fun p => by rw [port_report]; exact ⟨rfl, rfl⟩

@[simp] theorem lines_reportChannel (s : State) (i : Slot) (c : FaultClass) (p : Option Port) (d : FaultDetail) :
    (s.reportChannel i c p d).lines = s.lines :=
  lines_report s _

@[simp] theorem lines_reply (s : State) (p : Port) (code tag : Nat) (st : Status) (b : ReplyBody) :
    (s.reply p code tag st b).lines = s.lines :=
  lines_setPort rfl rfl

@[simp] theorem lines_replyLater (s : State) (p : Port) (code tag : Nat) (st : Status) (b : ReplyBody) :
    (s.replyLater p code tag st b).lines = s.lines :=
  (lines_setPort (by rfl) (by rfl)).trans (lines_reply s p code tag st b)

@[simp] theorem lines_answer (s : State) (hd : Head) (code : Nat) (st : Status) (b : ReplyBody) :
    (s.answer hd code st b).lines = s.lines :=
  lines_reply s hd.port code hd.tag st b

@[simp] theorem lines_defer (s : State) (hd : Head) (code : Nat) : (s.defer hd code).lines = s.lines :=
  lines_setPort rfl rfl

/-! ## Acts on one channel, and passes -/

@[simp] theorem lines_onLive {i : Slot} {s : State} {f : Live → State} (h : ∀ l, (f l).lines = s.lines) :
    (onLive i s f).lines = s.lines :=
  onLive_induct (P := fun t => t.lines = s.lines) (fun _ => rfl) fun l _ => h l

@[simp] theorem lines_onSlot {n : Nat} {s : State} {f : Slot → State} (h : ∀ i, (f i).lines = s.lines) :
    (onSlot n s f).lines = s.lines :=
  onSlot_induct (P := fun t => t.lines = s.lines) rfl h

@[simp] theorem lines_forSlots {f : Slot → State → State} (h : ∀ i s, (f i s).lines = s.lines) (s : State) :
    (forSlots f s).lines = s.lines :=
  forSlots_induct (P := fun t => t.lines = s.lines) (fun i t same => (h i t).trans same) rfl

/-! ## The log (R163 to R172) -/

theorem LogActs.lines {i : Slot} {s t : State} (h : LogActs i s t) : t.lines = s.lines := by
  obtain ⟨-, -, -, queue⟩ := h.system
  refine lines_eq queue fun p => ?_
  rcases h.ports p with e | e <;> rw [e] <;> exact ⟨rfl, rfl⟩

@[simp] theorem lines_closeSegment (s : State) (i : Slot) (frame : Nat) : (s.closeSegment i frame).lines = s.lines :=
  (logActs_closeSegment s i frame).lines

@[simp] theorem lines_notices (s : State) (i : Slot) (l : Live) (followed : Option Cursor) (cur : Cursor) (h : Nat) :
    (s.notices i l followed cur h).lines = s.lines :=
  (logActs_notices s i l followed cur h).lines

@[simp] theorem lines_switchRecord (s : State) (i : Slot) (a b : Output) (r : SwitchReason) (cue : Option Nat)
    (frame : Nat) (c : Cursor) : (s.switchRecord i a b r cue frame c).lines = s.lines :=
  (logActs_switchRecord s i a b r cue frame c).lines

/-! ## Custody: evaluation and takeovers (R109 to R119) -/

@[simp] theorem lines_setCustody (s : State) (i : Slot) (c : Custody) : (s.setCustody i c).lines = s.lines := by
  simp [State.setCustody]

@[simp] theorem lines_enterTaking (s : State) (i : Slot) (d : DrPort) (o : Origin) (m : TakeMode) :
    (s.enterTaking i d o m).lines = s.lines := by
  simp [State.enterTaking]

@[simp] theorem lines_carryOut (s : State) (i : Slot) (a : PolicyAction) : (s.carryOut i a).1.lines = s.lines := by
  rcases carryOut_cases s i a with e | ⟨o, e, -⟩ | ⟨d, m, e, -⟩ <;> rw [e]
  · exact lines_raisePolicyNotice s
  · exact lines_enterTaking s i d .policy m

@[simp] theorem lines_evaluate (s : State) (i : Slot) : (s.evaluate i).1.lines = s.lines := by
  unfold State.evaluate
  split
  · rfl
  · split
    · simp
    · simp
    · rfl

@[simp] theorem lines_changeConditions (s : State) (i : Slot) (f : Live → Custody → Custody) :
    (s.changeConditions i f).1.lines = s.lines := by
  unfold State.changeConditions
  split
  · rfl
  · dsimp only
    split <;> simp

@[simp] theorem lines_linkConditions (i : Slot) (s : State) : (s.linkConditions i).lines = s.lines :=
  lines_changeConditions s i _

@[simp] theorem lines_custodyArrival (s : State) (h : Nat) (timeSet : Bool) (i : Slot) :
    (s.custodyArrival h timeSet i).lines = s.lines :=
  lines_changeConditions s i _

/-! ## Custody: switch frames, misses and the loss of ports (R124 to R127, R142 to R147, R156 to R158) -/

@[simp] theorem lines_markDue (s : State) (h : Nat) (i : Slot) : (s.markDue h i).lines = s.lines := by
  refine lines_onLive fun l => ?_
  split
  · split <;> simp
  · rfl

@[simp] theorem lines_recordMiss (s : State) (i : Slot) (p : Option Port) (c : MissCause) :
    (s.recordMiss i p c).lines = s.lines := by
  refine lines_onLive fun l => ?_
  split
  · rfl
  · dsimp only
    split <;> simp

@[simp] theorem lines_endTakeover (s : State) (i : Slot) : (s.endTakeover i).lines = s.lines := by
  refine lines_onLive fun l => ?_
  split <;> simp

@[simp] theorem lines_miss (i : Slot) (left : Nat) (s : State) (p : Option Port) (c : MissCause) :
    (State.miss i left s p c).lines = s.lines := by
  induction left generalizing s p c with
  | zero => simp [State.miss]
  | succ left ih =>
    unfold State.miss
    dsimp only
    split
    · simp
    · split
      · simp
      · split <;> simp [ih]

@[simp] theorem lines_missCue (s : State) (i : Slot) (t : Takeover) (c : MissCause) :
    (s.missCue i t c).lines = s.lines :=
  lines_miss i _ s _ c

@[simp] theorem lines_takeSwitchFrame (s : State) (i : Slot) : (s.takeSwitchFrame i).lines = s.lines := by
  refine lines_onLive fun l => ?_
  split
  · split
    · split <;> simp [State.switchTo]
    · rfl
  · rfl

@[simp] theorem lines_takeReturnFrame (s : State) (i : Slot) : (s.takeReturnFrame i).lines = s.lines := by
  refine lines_onLive fun l => ?_
  split
  · split <;> simp
  · rfl

@[simp] theorem lines_takeDue (i : Slot) (s : State) : (s.takeDue i).lines = s.lines := by
  simp [State.takeDue]

@[simp] theorem lines_withdrawReturn (s : State) (i : Slot) (p : Port) : (s.withdrawReturn i p).lines = s.lines := by
  refine lines_onLive fun l => ?_
  split <;> simp

@[simp] theorem lines_linkWithdraws (i : Slot) (s : State) : (s.linkWithdraws i).lines = s.lines := by
  unfold State.linkWithdraws
  split <;> simp

@[simp] theorem lines_drLost (d : DrPort) (i : Slot) (s : State) : (s.drLost d i).lines = s.lines := by
  refine lines_onLive fun l => ?_
  dsimp only
  split
  · split
    · split <;> simp
    · rfl
  · split
    · unfold State.targetLost
      split
      · split <;> simp
      · split <;> simp
    · rfl
  · split <;> simp
  · rfl

@[simp] theorem lines_drBack (d : DrPort) (i : Slot) (s : State) : (s.drBack d i).lines = s.lines := by
  refine lines_onLive fun l => ?_
  split <;> simp

@[simp] theorem lines_presenceLost (s : State) (p : Port) : (s.presenceLost p).lines = s.lines := by
  unfold State.presenceLost
  split <;> simp

@[simp] theorem lines_presenceBack (s : State) (p : Port) : (s.presenceBack p).lines = s.lines := by
  unfold State.presenceBack
  split <;> simp

/-! ## The resolver and the batch engine (R66, R79, R89, R90, R102 to R105) -/

@[simp] theorem lines_holdExpiry (s : State) (i : Slot) : (s.holdExpiry i).lines = s.lines := by
  refine lines_onLive fun l => ?_
  split
  · split <;> simp
  · rfl

@[simp] theorem lines_leaseExpiry (s : State) (i : Slot) : (s.leaseExpiry i).lines = s.lines := by
  refine lines_onLive fun l => ?_
  split
  · split <;> simp
  · rfl

@[simp] theorem lines_leaseArrival (i : Slot) (s : State) : (s.leaseArrival i).lines = s.lines := by
  refine lines_onLive fun l => ?_
  split
  · split <;> simp
  · rfl

@[simp] theorem lines_resolverArrival (s : State) (h : Option Nat) (advancing : Bool) (i : Slot) :
    (s.resolverArrival h advancing i).lines = s.lines := by
  refine lines_onLive fun l => ?_
  split
  · simp
  · dsimp only
    split <;> simp

@[simp] theorem lines_endCompletion (s : State) (i : Slot) (l : Live) (b : Batch) (c : Completion) :
    (s.endCompletion i l b c).lines = s.lines := by
  unfold State.endCompletion State.endCommit
  refine (lines_onLive fun m => ?_).trans (by simp [State.custodyCommit])
  split <;> simp

@[simp] theorem lines_beginCompletion (s : State) (i : Slot) (l : Live) (b : Batch) :
    (s.beginCompletion i l b).lines = s.lines := by
  unfold State.beginCompletion
  split
  · simp
  · dsimp only
    split <;> simp

@[simp] theorem lines_commitStep (s : State) (i : Slot) : (s.commitStep i).lines = s.lines := by
  refine lines_onLive fun l => ?_
  split
  · rfl
  · split
    · rfl
    · split
      · simp
      · split <;> simp

@[simp] theorem lines_completeCommit (s : State) (i : Slot) (span : CompletionSpan) :
    (s.completeCommit i span).lines = s.lines := by
  cases span <;> simp [State.completeCommit]

/-! ## Arrivals and expiries of presence: the queue (R3 to R8, R209) -/

@[simp] theorem pending_expirePresence (s : State) (p : Port) : (s.expirePresence p).pending = s.pending := by
  unfold State.expirePresence
  split
  · rw [pending_of_lines (lines_presenceLost _ p), State.pending_setPort]
  · rfl

theorem pending_settleDue (s : State) : s.settleDue.pending = s.pending := by
  unfold State.settleDue
  dsimp only
  rw [pending_expirePresence, pending_expirePresence, pending_expirePresence]
  exact pending_of_lines (by simp)

theorem lines_recordRefLost (s : State) (before : RefState) : (s.recordRefLost before).lines = s.lines := by
  unfold State.recordRefLost
  split <;> simp

theorem lines_referenceArrival (s : State) (moment : Nat) (src : ArrivalSource) :
    (s.referenceArrival moment src).1.lines = s.lines := by
  have counted (r : Reference) : ((s.setReference r).recordRefLost s.reference.refState).lines = s.lines := by
    rw [lines_recordRefLost, lines_setReference]
  cases hp : s.reference.pendingSet with
  | none => rw [referenceArrival_plain hp]; exact counted _
  | some ps =>
    cases ha : s.channelActive with
    | true => rw [referenceArrival_active hp ha, lines_replyLater]; exact counted _
    | false => rw [referenceArrival_applied hp ha, lines_replyLater]; exact counted _

theorem lines_custodyNotes (s : State) (a : Arrival) (first : List Nat) : (s.custodyNotes a first).lines = s.lines := by
  have decided (ns : List Nat) (t : State) :
      (ns.foldl (fun s n => onSlot n s fun i => s.takeDue i) t).lines = t.lines := by
    induction ns generalizing t with
    | nil => rfl
    | cons n ns ih => rw [List.foldl_cons, ih]; simp
  unfold State.custodyNotes
  split
  · rfl
  · rw [decided]; simp

theorem pending_deliverArrival (s : State) (moment : Nat) (src : ArrivalSource) (first : List Nat) :
    (s.deliverArrival moment src first).pending = s.pending := by
  unfold State.deliverArrival
  dsimp only
  rw [State.pending_presenceArrival, State.pending_presenceArrival, State.pending_presenceArrival,
    ← pending_settleDue s]
  refine pending_of_lines ?_
  rw [lines_forSlots lines_leaseArrival]
  split <;> simp [lines_custodyNotes, lines_referenceArrival]

end Sys2Proof.Machine
end

section
/-! Requests as the Port Unit takes them: presence first, PORT_BUSY, the division of the body, and then an act that
leaves the queue and the lines to what the taking has made of them (R204, R206 to R209). -/

namespace Sys2Proof.Machine

/-! ## What the acts of requests leave of the queue and the lines -/

@[simp] theorem lines_conclude {α : Type} {s : State} {hd : Head} {code : Nat} {v : Verdict α} {k : α → State}
    (h : ∀ a, (k a).lines = s.lines) : (s.conclude hd code v k).lines = s.lines := by
  cases v with
  | error e => exact lines_answer s hd code e.1 e.2
  | ok a => exact h a

@[simp] theorem lines_setHouse (s : State) (p : HouseParams) : (s.setHouse p).lines = s.lines :=
  lines_eq rfl fun q => by cases q <;> exact ⟨rfl, rfl⟩

@[simp] theorem lines_forgetChannel (s : State) (i : Slot) (p : Port) : (s.forgetChannel i p).lines = s.lines :=
  lines_setPort rfl rfl

@[simp] theorem lines_changeInPlace (s : State) (i : Slot) (p : ChannelParams) : (s.changeInPlace i p).1.lines = s.lines := by
  unfold State.changeInPlace
  dsimp only
  split
  · split <;> simp
  · rw [lines_changeConditions]
    split <;> simp

@[simp] theorem lines_configure (s : State) (hd : Head) (i : Slot) (p : ChannelParams) (enter : Bool) :
    (s.configure hd i p enter).lines = s.lines := by
  unfold State.configure State.configured
  split
  · simp
  · simp [State.enterService]
  · simp
  · simp [State.leaveService]

@[simp] theorem lines_setBatch (s : State) (i : Slot) (l : Live) (b : Option Batch) :
    (s.setBatch i l b).lines = s.lines :=
  lines_setLive s i _

@[simp] theorem lines_readList (s : State) (hd : Head) (code : Nat) (i : Slot) (l : Live) (first count : Nat)
    (otherwise : Option ReadPos) : (s.readList hd code i l first count otherwise).lines = s.lines := by
  simp [State.readList]

@[simp] theorem lines_takeReply (s : State) (hd : Head) (i : Slot) : (s.takeReply hd i).lines = s.lines := by
  refine lines_onLive fun l => ?_
  split <;> simp

@[simp] theorem lines_cancelTakeover (s : State) (i : Slot) (l : Live) (t : Takeover) :
    (s.cancelTakeover i l t).lines = s.lines := by
  simp [State.cancelTakeover]

@[simp] theorem lines_evaluateAll (s : State) (is : List Slot) : (evaluateAll s is).1.lines = s.lines := by
  induction is generalizing s with
  | nil => rfl
  | cons i is ih => exact (ih _).trans (lines_evaluate s i)

@[simp] theorem lines_armWith (s : State) (op : ArmOp) (given : List Nat) : (s.armWith op given).1.lines = s.lines := by
  simp [State.armWith, State.combineArm]

@[simp] theorem lines_acceptReturn (s : State) (i : Slot) (l : Live) (t : Nat) (f : ReturnFields) :
    (s.acceptReturn i l t f).lines = s.lines := by
  have pending (u : State) (p : Option Port) : (u.raiseReturnAt p).lines = u.lines := by
    cases p with
    | none => rfl
    | some p => exact lines_raise u p _
  simp [State.acceptReturn, pending]

@[simp] theorem lines_clear (s : State) (ns : List Nat) (capture : Bool) : (s.clear ns capture).lines = s.lines := by
  refine lines_eq (by rw [clear_eq]) fun p => ?_
  rw [port_clear]
  exact ⟨rfl, rfl⟩

theorem lines_presenceEntries (es : List PresenceEntry) (r : State × Nat × Nat) :
    (es.foldl State.presenceEntry r).1.lines = r.1.lines := by
  induction es generalizing r with
  | nil => rfl
  | cons e es ih =>
    rw [List.foldl_cons, ih, State.presenceEntry]
    split <;> simp

/-- A port reset moves the receive line alone: not at all where it stands so already (R211). -/
theorem lines_resetPortOf {s : State} {p : Port} {rcv : Receive} (stands : rcv = (s.port p).receive) :
    (s.resetPortOf p rcv).lines = s.lines := by
  unfold State.resetPortOf
  dsimp only
  rw [lines_forSlots (by simp)]
  exact (lines_setReference _ _).trans (lines_setPort stands rfl)

theorem pending_resetPortOf (s : State) (p : Port) (rcv : Receive) : (s.resetPortOf p rcv).pending = s.pending := by
  unfold State.resetPortOf
  dsimp only
  rw [pending_of_lines (lines_forSlots (by simp) _), State.pending_setPort]

/-! ## The taking of a request (R204, R206, R207) -/

/-- What the Port Unit's own refusals of a request carry: the state of the log for READ AS-RUN, and else nothing (R162).
-/
def portRefusal : Instr → State → ReplyBody
  | .readAsRun _ _, s => s.asRun.refusal
  | _, _ => .empty

/-- `c` is a request that is taken as R206 and R207 say, and whose act leaves the queue and the lines alone. -/
inductive Taken (c : Instr) (hd : Head) (code : Nat) : Prop
  | intro {α : Type} (body : Body α) (act : α → State → State)
    (runs : ∀ s, exec c s = .next (takeRequestWith (portRefusal c) hd code body act s))
    (misfits : bodyMisfits c = isMisfit body) (acts : ∀ f u, (act f u).lines = u.lines)

/-- A request that is refused by its checks or carried out. -/
theorem Taken.checked {c : Instr} {hd : Head} {code : Nat} {α β : Type} {body : Body α} {check : α → State → Verdict β}
    {act : α → State → β → State}
    (runs : ∀ s, exec c s = .next (takeRequestWith (portRefusal c) hd code body
      (fun f u => u.conclude hd code (check f u) (act f u)) s))
    (misfits : bodyMisfits c = isMisfit body) (acts : ∀ f u a, (act f u a).lines = u.lines) : Taken c hd code :=
  .intro body _ runs misfits fun f u => lines_conclude (acts f u)

/-- Every request is taken so, but for a PRESENCE of Port L, which joins the change of presence as one event (R109,
R209), and PORT RESET, which is taken while another is in progress too (R212). -/
theorem taken_or {c : Instr} {hd : Head} {code : Nat} (h : requestOf c = some (hd, code)) :
    Taken c hd code ∨ (∃ b, c = .presence hd b ∧ code = 1 ∧ hd.port = .L) ∨ ∃ b, c = .portReset hd b ∧ code = 2 := by
  cases c <;> simp only [requestOf, Option.some.injEq, Prod.mk.injEq, reduceCtorEq] at h <;> obtain ⟨rfl, rfl⟩ := h
  case presence hd b =>
    cases hp : hd.port with
    | L => exact .inr (.inl ⟨b, rfl, rfl, rfl⟩)
    | _ =>
      refine .inl (.intro (.fields ()) (fun _ s => s.presenceReply hd none) (fun s => ?_)
        (by simp [bodyMisfits, hp, isMisfit]) fun _ u => lines_answer u hd 1 _ _)
      simp only [exec, execPresence, hp]
      rfl
  case portReset hd b => exact .inr (.inr ⟨b, rfl, rfl⟩)
  all_goals refine .inl ?_
  case unknownRequest hd code =>
    exact .intro (.fields ()) _ (fun _ => rfl) rfl fun _ u => lines_answer u hd code _ _
  case setTime hd b => exact .checked (fun _ => rfl) rfl fun _ u c => (lines_defer _ hd 3).trans (lines_setReference u _)
  case configureHouse hd b => exact .checked (fun _ => rfl) rfl (by simp)
  case configureChannel hd b => exact .checked (fun _ => rfl) rfl (by simp)
  case readChannel hd b => exact .checked (fun _ => rfl) rfl (by simp)
  case openBatch hd b => exact .checked (fun _ => rfl) rfl (by simp)
  case addEntries hd b => exact .checked (fun _ => rfl) rfl (by simp)
  case closeBatch hd b => exact .checked (fun _ => rfl) rfl (by simp)
  case abortBatch hd b => exact .checked (fun _ => rfl) rfl fun _ u c => by split <;> simp
  case readEvents hd b => exact .checked (fun _ => rfl) rfl (by simp)
  case readNextEvents hd b => exact .checked (fun _ => rfl) rfl (by simp)
  case readCursor hd b => exact .checked (fun _ => rfl) rfl (by simp)
  case take hd b => exact .checked (fun _ => rfl) rfl (by simp)
  case cancelTake hd b => exact .checked (fun _ => rfl) rfl (by simp)
  case fetchCue hd b => exact .checked (fun _ => rfl) rfl (by simp)
  case cueReady hd b => exact .checked (fun _ => rfl) rfl (by simp)
  case hold hd b => exact .checked (fun _ => rfl) rfl (by simp)
  case releaseHold hd b => exact .checked (fun _ => rfl) rfl fun _ u c => by split <;> simp [State.releaseNow]
  case handback hd b => exact .checked (fun _ => rfl) rfl (by simp)
  case cancelReturn hd b => exact .checked (fun _ => rfl) rfl (by simp)
  case arm hd b => exact .checked (fun _ => rfl) rfl (by simp)
  case matchChannels hd b => exact .checked (fun _ => rfl) rfl (by simp)
  case readAsRun hd b => exact .checked (fun _ => rfl) rfl (by simp)
  case mark hd b => exact .checked (fun _ => rfl) rfl (by simp)
  case readStatus hd b =>
    exact .intro b _ (fun _ => rfl) rfl fun _ u => (lines_raise _ _ _).trans (lines_answer u hd 26 _ _)
  case readFaults hd b => exact .intro b _ (fun _ => rfl) rfl fun _ u => lines_answer u hd 27 _ _
  case clearFaults hd b => exact .checked (fun _ => rfl) rfl (by simp)

end Sys2Proof.Machine
end

section
/-! The commands of the queue and of the ports: every command leaves the queue, every request restarts its port's
presence, and the Port Unit's own answers (R204 to R210). -/

namespace Sys2Proof.Machine

/-! ## The queue -/

/-- Settles O1. -/
theorem stepRunsTheFrontCommand : Obligations.StepRunsTheFrontCommand := by
  unfold Obligations.StepRunsTheFrontCommand
  intro c rest s front
  rw [step, front]

/-! ## The taking of a request, and the lines it leaves (R204, R208, R209) -/

theorem lines_arrive (s : State) (p : Port) : (s.arrive p).lines = (s.restartPresence p).lines := by
  unfold State.arrive
  dsimp only
  split
  · rfl
  · exact lines_presenceBack _ p

theorem pending_arrive (s : State) (p : Port) : (s.arrive p).pending = s.pending :=
  (pending_of_lines (lines_arrive s p)).trans (State.pending_restartPresence s p)

theorem port_arrive_lines (s : State) (p : Port) :
    ((s.arrive p).port p).receive = .hunting ∧ ((s.arrive p).port p).presence = some (s.timeoutOf p) := by
  rw [receive_of_lines (lines_arrive s p), presence_of_lines (lines_arrive s p), port_restartPresence_self]
  exact ⟨rfl, rfl⟩

theorem takeRequestWith_of_hears {α : Type} (w : State → ReplyBody) {s : State} {hd : Head} (code : Nat) (b : Body α)
    {act : α → State → State} (acts : ∀ f u, (act f u).lines = u.lines)
    (h : hears (s.port hd.port).receive = true) :
    (takeRequestWith w hd code b act s).lines = (s.restartPresence hd.port).lines := by
  rw [← lines_arrive]
  unfold takeRequestWith
  rw [if_pos h]
  dsimp only
  split
  · exact lines_answer _ hd code _ _
  · split
    · exact lines_answer _ hd code _ _
    · exact acts _ _

theorem lines_linkPresence (s : State) (hd : Head) (b : Body (List PresenceEntry)) :
    (s.linkPresence hd b).lines = (s.restartPresence .L).lines := by
  unfold State.linkPresence
  split
  · exact (lines_answer _ hd 1 _ _).trans (lines_arrive s .L)
  · split
    · exact (lines_answer _ hd 1 _ _).trans (lines_arrive s .L)
    · exact (lines_answer _ hd 1 _ _).trans
        ((lines_forSlots (by simp) _).trans (lines_presenceEntries _ (s.restartPresence .L, 0, 0)))

/-- On a line that can bring a frame, every request leaves a next state, whose queue and lines are those that the
restart of its port's presence timer leaves. -/
theorem exec_request_lines {c : Instr} {hd : Head} {code : Nat} {s : State} (request : requestOf c = some (hd, code))
    (h : hears (s.port hd.port).receive = true) :
    ∃ t, exec c s = .next t ∧ t.lines = (s.restartPresence hd.port).lines := by
  rcases taken_or request with ⟨body, act, runs, -, acts⟩ | ⟨b, rfl, rfl, link⟩ | ⟨b, rfl, rfl⟩
  · exact ⟨_, runs s, takeRequestWith_of_hears _ code body acts h⟩
  · rw [link] at h ⊢
    refine ⟨_, rfl, ?_⟩
    simp only [link, h, if_true]
    exact lines_linkPresence s hd b
  · refine ⟨_, rfl, ?_⟩
    rw [if_pos h, ← lines_arrive]
    dsimp only
    split
    · exact lines_answer _ hd 2 _ _
    · exact (lines_answer _ hd 2 _ _).trans (lines_resetPortOf (port_arrive_lines s hd.port).1.symm)

/-- On a line that discards or stands in a break no request has an effect (log entry 19). -/
theorem exec_request_deaf {c : Instr} {hd : Head} {code : Nat} {s : State} (request : requestOf c = some (hd, code))
    (h : hears (s.port hd.port).receive = false) : exec c s = .next s := by
  rcases taken_or request with ⟨body, act, runs, -, -⟩ | ⟨b, rfl, rfl, link⟩ | ⟨b, rfl, rfl⟩
  · rw [runs, takeRequestWith_deaf _ h]
  · rw [link] at h
    simp [exec, execPresence, link, h]
  · simp [exec, execPortReset, h]

/-- Settles O4, by the queue and the lines that every request leaves. -/
theorem everyRequestRestartsPresence : Obligations.EveryRequestRestartsPresence := by
  unfold Obligations.EveryRequestRestartsPresence
  intro c hd code s t request h run
  obtain ⟨t', run', lines⟩ := exec_request_lines request h
  cases run.symm.trans run'
  rw [presence_of_lines lines, receive_of_lines lines, port_restartPresence_self]
  exact ⟨rfl, rfl⟩

/-- A request leaves the queue, whether or not its line can bring it. -/
theorem exec_request_pending {c : Instr} {hd : Head} {code : Nat} (request : requestOf c = some (hd, code)) (s : State) :
    ∃ t, exec c s = .next t ∧ t.pending = s.pending := by
  cases h : hears (s.port hd.port).receive with
  | false => exact ⟨s, exec_request_deaf request h, rfl⟩
  | true =>
    obtain ⟨t, run, lines⟩ := exec_request_lines request h
    exact ⟨t, run, (pending_of_lines lines).trans (State.pending_restartPresence s hd.port)⟩

/-- An event at a slot leaves the queue. -/
theorem pending_onSlot {f : Slot → State} {s : State} (h : ∀ i, (f i).lines = s.lines) (n : Nat) :
    (onSlot n s f).pending = s.pending :=
  pending_of_lines (lines_onSlot h)

/-- Settles O2: a request by its taking, and each event by its own act. -/
theorem everyCommandKeepsTheQueue : Obligations.EveryCommandKeepsTheQueue := by
  unfold Obligations.EveryCommandKeepsTheQueue
  intro c s
  cases c
  case deviceReset pins => exact ⟨_, rfl, rfl⟩
  case storeInitialisationEnd => exact ⟨_, rfl, rfl⟩
  case housePulse moment first =>
    refine ⟨_, rfl, ?_⟩
    split
    · exact pending_deliverArrival s moment .pulse first
    · rfl
  case insertedArrival moment first =>
    refine ⟨_, rfl, ?_⟩
    split
    · exact pending_deliverArrival s moment .timebase first
    · rfl
  case holdLimit n => exact ⟨_, rfl, pending_onSlot (by simp) n⟩
  case leaseExpired n => exact ⟨_, rfl, pending_onSlot (by simp) n⟩
  case presenceExpiry p => exact ⟨_, rfl, pending_expirePresence s p⟩
  case commitCompletion x => exact ⟨_, rfl, pending_onSlot (by simp) x.slot⟩
  case switchFrameReached n => exact ⟨_, rfl, pending_onSlot (by simp) n⟩
  case returnSwitchFrame n => exact ⟨_, rfl, pending_onSlot (by simp) n⟩
  case badFrame p cause =>
    refine ⟨_, rfl, ?_⟩
    split <;> simp
  case lineBreak p =>
    refine ⟨_, rfl, ?_⟩
    split
    · rfl
    · exact pending_resetPortOf s p .inBreak
  case lineIdle p =>
    refine ⟨_, rfl, ?_⟩
    split <;> simp
  case lineReturnsToMark p =>
    refine ⟨_, rfl, ?_⟩
    split <;> simp
  all_goals exact exec_request_pending rfl s

/-! ## The Port Unit's own answers (R206, R207) -/

/-- Settles O5: the taking of a request meets PORT_BUSY and then BAD_FIELD before any act. -/
theorem requestsThatReachNoBlockAreAnswered : Obligations.RequestsThatReachNoBlockAreAnswered := by
  unfold Obligations.RequestsThatReachNoBlockAreAnswered
  intro c hd code s request h present body answer
  have carried : portRefusal c (s.restartPresence hd.port) = body := by
    cases c with
    | readAsRun _ _ => simp only [portRefusal, State.asRun_restartPresence]; rfl
    | _ => rfl
  refine ⟨fun busy notReset => ?_, fun idle => ⟨fun misfit => ?_, ?_⟩⟩
  · rcases taken_or request with ⟨layout, act, runs, -, -⟩ | ⟨b, rfl, rfl, link⟩ | ⟨b, rfl, rfl⟩
    · dsimp only [answer]
      rw [runs, takeRequestWith_busy _ h present busy, carried, answer_eq_reply]
    · rw [link] at h present busy
      simp [answer, body, exec, execPresence, State.linkPresence, link, h, busy, arrive_of_present present,
        answer_eq_reply]
    · exact absurd rfl notReset
  · have ready : Ready s hd.port := ⟨⟨h, idle⟩, present⟩
    rcases taken_or request with ⟨layout, act, runs, misfits, -⟩ | ⟨b, rfl, rfl, link⟩ | ⟨b, rfl, rfl⟩
    · cases layout with
      | fields f => rw [misfits] at misfit; cases misfit
      | misfit =>
        dsimp only [answer]
        rw [runs, takeRequestWith_misfit _ ready, carried, answer_eq_reply]
    · rw [link] at h present idle
      cases b with
      | fields es => simp [bodyMisfits, isMisfit] at misfit
      | misfit =>
        simp [answer, body, exec, execPresence, State.linkPresence, link, h, idle, presenceAccepted,
          arrive_of_present present, answer_eq_reply]
    · cases b with
      | fields u => cases misfit
      | misfit => simp [answer, body, exec, execPortReset, h, arrive_of_present present, answer_eq_reply]
  · rintro rfl
    exact congrArg Host.Outcome.next (takeRequest_of_ready ⟨⟨h, idle⟩, present⟩ code () _)

/-! ## Lines that resume (R205, R212) -/

/-- Settles O34. -/
theorem linesResumeHunting : Obligations.LinesResumeHunting := by
  unfold Obligations.LinesResumeHunting
  intro p s
  refine ⟨rfl, rfl, fun deaf => ⟨fun cause => ?_, ?_⟩⟩
  · simp [exec, execBadFrame, deaf]
  · rintro c hd code request rfl
    exact exec_request_deaf request deaf

end Sys2Proof.Machine
end

section
/-! The roles table (R207), the part at device reset with its laws (R213), bad frames (R205) and port resets (R211,
R212). -/

namespace Sys2Proof.Machine

/-! ## The roles table (R207) -/

theorem fromDr_link {α : Type} {hd : Head} (link : hd.port = .L) (rest : Verdict α) :
    fromDr hd rest = .error (.notPermitted, .empty) := by
  simp [fromDr, link]

/-- A request of a ready port whose checks refuse it without details, whatever its fields hold. -/
theorem takeRequest_refused {α β : Type} {s : State} {hd : Head} (ready : Ready s hd.port) {code : Nat} {b : Body α}
    (divides : isMisfit b = false) {check : α → State → Verdict β} {act : α → State → β → State} {st : Status}
    (refused : ∀ f, check f (s.restartPresence hd.port) = .error (st, .empty)) :
    (Host.Outcome.next (takeRequest hd code b (fun f u => u.conclude hd code (check f u) (act f u)) s) : Answer) =
      .next ((s.restartPresence hd.port).reply hd.port code hd.tag st .empty) := by
  cases b with
  | misfit => cases divides
  | fields f => rw [takeRequest_of_ready ready, refused f, conclude_error, answer_eq_reply]

/-- From Port L the twelve requests are refused before any other check, CONFIGURE CHANNEL once the store is ready. -/
theorem exec_fromLink {c : Instr} {hd : Head} {code : Nat} {s : State} (request : requestOf c = some (hd, code))
    (known : ∀ n, c ≠ .unknownRequest hd n) (divides : bodyMisfits c = false) (ready : Ready s hd.port)
    (store : s.storeReady = true) (link : hd.port = .L) (member : code ∈ drOnlyCodes) :
    exec c s = .next ((s.restartPresence hd.port).reply hd.port code hd.tag .notPermitted .empty) := by
  have refused := fun {α : Type} (rest : Verdict α) => fromDr_link link rest
  cases c <;> simp only [requestOf, Option.some.injEq, Prod.mk.injEq, reduceCtorEq] at request <;>
    obtain ⟨rfl, rfl⟩ := request
  case unknownRequest hd code => exact absurd rfl (known code)
  case setTime hd b => exact takeRequest_refused ready divides fun _ => refused _
  case configureHouse hd b => exact takeRequest_refused ready divides fun _ => refused _
  case configureChannel hd b =>
    refine takeRequest_refused ready divides fun f => ?_
    rw [State.checkConfigureChannel, State.whenReady, State.storeReady_restartPresence, store]
    exact refused _
  case take hd b =>
    refine takeRequest_refused ready divides fun f => ?_
    rw [State.checkTake, link]
    rfl
  case cancelTake hd b => exact takeRequest_refused ready divides fun _ => refused _
  case fetchCue hd b => exact takeRequest_refused ready divides fun _ => refused _
  case cueReady hd b => exact takeRequest_refused ready divides fun _ => refused _
  case hold hd b => exact takeRequest_refused ready divides fun _ => refused _
  case releaseHold hd b => exact takeRequest_refused ready divides fun _ => refused _
  case cancelReturn hd b => exact takeRequest_refused ready divides fun _ => refused _
  case arm hd b => exact takeRequest_refused ready divides fun _ => refused _
  case clearFaults hd b => exact takeRequest_refused ready divides fun _ => refused _
  all_goals exact absurd member (by decide)

/-- From Ports A and B RETURN is refused before any other check. -/
theorem exec_handback_fromDr {hd : Head} {b : Body ReturnFields} {s : State} (divides : isMisfit b = false)
    (ready : Ready s hd.port) (dr : hd.port ≠ .L) :
    exec (.handback hd b) s = .next ((s.restartPresence hd.port).reply hd.port 20 hd.tag .notPermitted .empty) := by
  refine takeRequest_refused ready divides fun f => ?_
  rw [State.checkReturn, decide_eq_true dr]
  rfl

/-- Settles O6: the role is the first check of each request of the table, once the store is ready. -/
theorem rolesAreKept : Obligations.RolesAreKept := by
  unfold Obligations.RolesAreKept
  rintro c hd code s request known divides ready store (⟨link, member⟩ | ⟨dr, rfl⟩)
  · exact exec_fromLink request known divides ready store link member
  · cases c
    case unknownRequest hd' n =>
      cases request
      exact absurd rfl (known 20)
    case handback hd' b =>
      cases request
      exact exec_handback_fromDr divides ready dr
    all_goals cases request

/-! ## Device reset (R213) -/

theorem live_reset (i : Slot) : State.reset.live i = none := live_resetState _ _ _ [] i

theorem params_reset (i : Slot) : State.reset.params i = defaultParams := by
  simp [State.params, State.chan, State.reset, resetState]

theorem inService_reset : State.reset.inService = [] := by
  simp [State.inService, live_reset]

/-- With no channel in service, every statement about the channels in service holds. -/
theorem everyChannel_reset (P : ChannelParams → Live → Prop) : EveryChannel P State.reset := by
  intro i l hl
  rw [live_reset] at hl
  cases hl

/-- Settles O10: no channel is in service, the log is empty, and the defaults lie in their ranges. -/
theorem everyLawHoldsAtReset : Obligations.EveryLawHoldsAtReset := by
  unfold Obligations.EveryLawHoldsAtReset
  refine ⟨everyChannel_reset _, ⟨everyChannel_reset _, everyChannel_reset _⟩, everyChannel_reset _,
    everyChannel_reset _, everyChannel_reset _, logLaw_resetState _ _ _ [], ⟨?_, everyChannel_reset _⟩,
    ⟨everyChannel_reset _, fun i j li lj hl => ?_⟩, ⟨by decide, fun i => ?_⟩, ?_⟩
  · simp [State.quotaSum, inService_reset]
  · rw [live_reset] at hl
    cases hl
  · rw [params_reset]
    decide
  · simp [StagingLaw, State.buffersInUse, inService_reset]

/-- Settles O20. -/
theorem deviceResetLeavesTheInitialState : Obligations.DeviceResetLeavesTheInitialState := by
  unfold Obligations.DeviceResetLeavesTheInitialState
  intro pins s
  refine ⟨_, rfl, rfl, rfl, rfl, fun i => ?_, rfl, rfl, rfl, rfl, fun p => ?_⟩
  · simp [State.chan, resetState, defaultParams, defaultPolicy]
  · cases p <;> rfl

/-! ## Bad frames (R205) -/

/-- A report that names no channel leaves every channel as it was. -/
theorem chan_report_house (s : State) {r : FaultReport} (house : r.slot = none) (j : Slot) :
    (s.report r).chan j = s.chan j := by
  have live : (s.report r).live j = s.live j := by
    rw [live_report]
    cases s.live j <;> simp [reportedFlags, house]
  have params : (s.report r).params j = s.params j := State.params_report s r j
  show Channel.mk ((s.report r).params j) ((s.report r).live j) = Channel.mk (s.params j) (s.live j)
  rw [params, live]

theorem afterBadFrame_eq (cause : BadFrameCause) :
    afterBadFrame cause = if cause = .length then .discarding else .hunting := by
  cases cause <;> rfl

/-- Settles O33: the reply is sent, and then LINE_ERROR is reported in the house's flag set. -/
theorem badFrameIsAnsweredAndRecorded : Obligations.BadFrameIsAnsweredAndRecorded := by
  unfold Obligations.BadFrameIsAnsweredAndRecorded
  intro p cause s h
  refine ⟨_, congrArg Host.Outcome.next (if_pos h), ?_, ?_, fun q other => ?_, fun j => ?_, ?_, ?_⟩
  · rw [houseFlags_report, if_pos rfl, mem_addFlag]
    exact .inl rfl
  · have attention : (s.setPort p { s.port p with receive := afterBadFrame cause }).attention p = s.attention p :=
      attention_setPort s p p _ rfl rfl
    rw [port_report, port_reply_self, attention, State.port_setPort_self, afterBadFrame_eq]
  · rw [port_report, port_reply_ne _ other, State.port_setPort_ne s _ other]
  · rw [chan_report_house _ rfl, State.chan_reply, State.chan_setPort]
  · simp [SystemKept]
  · simp

/-! ## Port resets (R96, R141, R211, R212) -/

/-- A batch after the reset of port `p`: an OPEN one of the port ends, the reply of a SEALED one is abandoned (R96). -/
def Batch.afterReset (p : Port) (b : Batch) : Option Batch :=
  if b.port = p then
    match b.phase with
    | .opened _ => none
    | .sealed d _ => some { b with phase := .sealed d none }
  else some b

/-- A takeover after the reset of port `p`: a READY that the port has given is withdrawn (R141). -/
def Takeover.afterReset (p : Port) (x : Takeover) : Takeover :=
  if drPort x.target = p ∧ x.cue.state = .ready then { x with cue := { x.cue with state := .issued } } else x

theorem Live.set_batch {l : Live} {b : Option Batch} (h : l.batch = b) : { l with batch := b } = l := by
  subst h; rfl

theorem Live.set_takeover {l : Live} {k : Option Takeover} (h : l.custody.takeover = k) :
    { l with custody := { l.custody with takeover := k } } = l := by
  subst h; rfl

theorem withdrawReady_eq (l : Live) (d : DrPort) :
    l.withdrawReady d = { l with custody := { l.custody with
      takeover := l.custody.takeover.map (Takeover.afterReset (drPort d)) } } := by
  have same (a b : DrPort) : drPort a = drPort b ↔ a = b := by cases a <;> cases b <;> decide
  unfold Live.withdrawReady
  cases hk : l.custody.takeover with
  | none => exact (Live.set_takeover hk).symm
  | some x =>
    simp only [Option.map_some, Takeover.afterReset, same]
    split
    · rfl
    · exact (Live.set_takeover hk).symm

/-- The batch that a port reset leaves a channel. -/
def Live.batchReset (l : Live) (p : Port) : Live := { l with batch := l.batch.bind (Batch.afterReset p) }

/-- A port reset at one channel: the batch, and then the READY of an automation port (R96, R141). -/
theorem portReset_steps (l : Live) (p : Port) :
    l.portReset p = (asDr p).elim (l.batchReset p) (l.batchReset p).withdrawReady := by
  unfold Live.portReset Live.batchReset
  cases hb : l.batch with
  | none => rw [Option.bind_none, Live.set_batch hb]; cases p <;> rfl
  | some b =>
    dsimp only [Option.bind_some, Batch.afterReset]
    by_cases own : b.port = p
    · simp only [if_pos own]
      cases b.phase <;> cases p <;> rfl
    · simp only [if_neg own, Live.set_batch hb]
      cases p <;> rfl

/-- What a port reset makes of a channel. -/
theorem portReset_eq (l : Live) (p : Port) :
    l.portReset p = { l with
      batch := l.batch.bind (Batch.afterReset p)
      custody := { l.custody with takeover := l.custody.takeover.map (Takeover.afterReset p) } } := by
  rw [portReset_steps]
  cases p with
  | L =>
    have automation (d : DrPort) : drPort d ≠ .L := by cases d <;> decide
    have standing : Takeover.afterReset .L = id := funext fun x => if_neg fun h => automation x.target h.1
    rw [standing, Option.map_id]
    rfl
  | A => exact withdrawReady_eq _ .A
  | B => exact withdrawReady_eq _ .B

/-! ## A pass that changes each channel in service by itself -/

/-- Every channel in service changed by `g`, in slot order. -/
def State.mapLive (g : Live → Live) (s : State) : State := forSlots (fun i s => onLive i s fun l => s.setLive i (g l)) s

theorem live_mapLive (g : Live → Live) (s : State) (i : Slot) : (s.mapLive g).live i = (s.live i).map g := by
  have other (j : Slot) (t : State) (ne : j ≠ i) : (onLive j t fun l => t.setLive j (g l)).live i = t.live i :=
    onLive_induct (P := fun u => u.live i = t.live i) (fun _ => rfl) fun l _ => State.live_setLive_ne t _ ne.symm
  refine forSlots_at (P := fun t => t.live i = s.live i) (Q := fun t => t.live i = (s.live i).map g) i
    (fun j t ne same => (other j t ne).trans same) (fun t same => ?_) (fun j t ne same => (other j t ne).trans same) rfl
  cases hl : t.live i <;> simp [hl, ← same]

theorem onlyChannels_mapLive (g : Live → Live) (s : State) : OnlyChannels s (s.mapLive g) :=
  forSlots_induct (P := OnlyChannels s) (fun j _ only => onLive_induct (fun _ => only) fun _ _ => only.setLive j _) rfl

theorem params_mapLive (g : Live → Live) (s : State) (i : Slot) : (s.mapLive g).params i = s.params i :=
  forSlots_induct (P := fun t => t.params i = s.params i) (fun j t same =>
    onLive_induct (P := fun u => u.params i = s.params i) (fun _ => same)
      fun _ _ => (State.params_setLive t j i _).trans same) rfl

theorem OnlyChannels.port {s t : State} (h : OnlyChannels s t) (q : Port) : t.port q = s.port q := by
  rw [h]
  cases q <;> rfl

/-! ## The port reset (R18, R211) -/

/-- The unit of port `p` after its reset. -/
def State.unitReset (s : State) (p : Port) (rcv : Receive) : PortUnit :=
  { s.port p with
    receive := rcv, inProgress := none, reasons := ⟨false, false, false, false⟩, readPos := none, follow := false }

/-- The Reference Counter after a reset of port `p`: a pending set of it is withdrawn (R18). -/
def Reference.withoutSet (r : Reference) (p : Port) : Reference :=
  { r with pendingSet := r.pendingSet.filter fun ps => decide (ps.port ≠ p) }

theorem resetPortOf_eq (s : State) (p : Port) (rcv : Receive) :
    s.resetPortOf p rcv =
      ((s.setPort p (s.unitReset p rcv)).setReference (s.reference.withoutSet p)).mapLive fun l => l.portReset p := by
  unfold State.resetPortOf State.mapLive State.setReference Reference.withoutSet
  dsimp only
  rw [State.reference_setPort]
  cases s.reference.pendingSet with
  | none => rfl
  | some ps => by_cases own : ps.port = p <;> simp [own, State.unitReset, Option.filter]

/-- What a port reset leaves outside the Channel Table. -/
theorem resetPortOf_rest (s : State) (p : Port) (rcv : Receive) :
    OnlyChannels ((s.setPort p (s.unitReset p rcv)).setReference (s.reference.withoutSet p)) (s.resetPortOf p rcv) := by
  rw [resetPortOf_eq]
  exact onlyChannels_mapLive _ _

theorem live_resetPortOf (s : State) (p : Port) (rcv : Receive) (i : Slot) :
    (s.resetPortOf p rcv).live i = (s.live i).map fun l => l.portReset p := by
  rw [resetPortOf_eq, live_mapLive, State.live_setReference, State.live_setPort]

theorem params_resetPortOf (s : State) (p : Port) (rcv : Receive) (i : Slot) :
    (s.resetPortOf p rcv).params i = s.params i := by
  rw [resetPortOf_eq, params_mapLive]
  exact State.params_setPort s p _ i

theorem exec_portReset {s : State} {hd : Head} (h : hears (s.port hd.port).receive = true) (b : Body Unit) :
    exec (.portReset hd b) s = .next (match b with
      | .misfit => (s.arrive hd.port).answer hd 2 .badField .empty
      | .fields _ => ((s.arrive hd.port).resetPortOf hd.port .hunting).answer hd 2 .ok
          (.attentionSet (((s.arrive hd.port).resetPortOf hd.port .hunting).attention hd.port))) := by
  refine congrArg Host.Outcome.next ((if_pos h).trans ?_)
  cases b <;> rfl

/-- Settles O35: the reset is the port's own unit and set, and `portReset` at each channel. -/
theorem portResetActsOnThePortAlone : Obligations.PortResetActsOnThePortAlone := by
  unfold Obligations.PortResetActsOnThePortAlone
  refine ⟨fun p s standing => congrArg Host.Outcome.next (if_neg standing), fun hd s h present => ⟨_, rfl, ?_⟩, ?_⟩
  · rw [exec_portReset h, arrive_of_present present]
    rfl
  · intro p rcv s t reset
    have only : OnlyChannels ((s.setPort p (s.unitReset p rcv)).setReference (s.reference.withoutSet p)) t := by
      rw [reset]; exact resetPortOf_rest s p rcv
    have params (i : Slot) : t.params i = s.params i := by rw [reset]; exact params_resetPortOf s p rcv i
    have live (i : Slot) : t.live i = (s.live i).map fun l => l.portReset p := by
      rw [reset]; exact live_resetPortOf s p rcv i
    clear reset
    refine ⟨?_, fun q other => ?_, ?_, ?_, ?_, ?_, ?_, ?_, params, fun i idle => ?_, fun i l hl => ?_⟩
    · rw [only.port, State.port_setReference, State.port_setPort_self]
      rfl
    · rw [only.port, State.port_setReference, State.port_setPort_ne s _ other]
    · rw [only]; rfl
    · rw [only]; exact State.house_setPort s p _
    · rw [only]; exact State.storeReady_setPort s p _
    · rw [only]; exact State.asRun_setPort s p _
    · rw [only]; exact State.houseFlags_setPort s p _
    · rw [only]; exact State.capture_setPort s p _
    · rw [live, idle]; rfl
    · refine ⟨l.batch.bind (Batch.afterReset p), _, by rw [live, hl, Option.map_some, portReset_eq]; rfl,
        fun b hb other => ?_, fun hb => ?_, fun b n hb own opened => ?_, fun b d g hb own closed => ?_, rfl⟩
      · simp [hb, Batch.afterReset, other]
      · simp [hb]
      · simp [hb, Batch.afterReset, own, opened]
      · simp [hb, Batch.afterReset, own, closed]

end Sys2Proof.Machine
end

section
/-! The change to PRESENT that ends an absence (R209): the request meets what it has left, a swap to an automation port
that is back (R126), and the conditions of every channel at the return of Port L (R110, R112, R117). -/

namespace Sys2Proof.Machine

/-! ## The request meets what the change has left (R209) -/

theorem slotAct_drBack (d : DrPort) (i : Slot) (s : State) : SlotAct i s (s.drBack d i) :=
  .onLive fun l _ => by
    split
    · exact slotAct_enterTaking s i d .swap .now
    · exact .refl i s

theorem kept_presenceBack (s : State) (p : Port) : Kept timersStand s (s.presenceBack p) := by
  unfold State.presenceBack
  cases asDr p with
  | some d => exact .pass (slotAct_drBack d) s
  | none => exact .pass slotAct_linkConditions s

theorem house_arrive (s : State) (p : Port) : (s.arrive p).house = s.house := by
  unfold State.arrive
  dsimp only
  split
  · exact State.house_restartPresence s p
  · rw [(kept_presenceBack _ p).house, State.house_restartPresence]

/-- A port that a request has made PRESENT is so: to take it again changes nothing. -/
theorem arrive_arrive (s : State) (p : Port) : (s.arrive p).arrive p = s.arrive p := by
  obtain ⟨receive, presence⟩ := port_arrive_lines s p
  have present : (s.arrive p).present p = true := by rw [State.present, presence]; rfl
  have timeout : (s.arrive p).timeoutOf p = s.timeoutOf p := by simp [State.timeoutOf, house_arrive]
  rw [arrive_of_present present, State.restartPresence, timeout, ← receive, ← presence]
  exact State.setPort_port _ p

theorem hears_arrive (s : State) (p : Port) : hears ((s.arrive p).port p).receive = true := by
  rw [(port_arrive_lines s p).1]
  rfl

theorem takeRequestWith_arrive {α : Type} (w : State → ReplyBody) {s : State} {hd : Head} (code : Nat) (b : Body α)
    (act : α → State → State) (h : hears (s.port hd.port).receive = true) :
    takeRequestWith w hd code b act s = takeRequestWith w hd code b act (s.arrive hd.port) := by
  unfold takeRequestWith
  rw [if_pos h, if_pos (hears_arrive s hd.port), arrive_arrive]

/-- R209 for every request but a PRESENCE of Port L. -/
theorem exec_arrive {c : Instr} {hd : Head} {code : Nat} {s : State} (request : requestOf c = some (hd, code))
    (apart : ¬(hd.port = .L ∧ code = 1)) (h : hears (s.port hd.port).receive = true) :
    exec c s = exec c (s.arrive hd.port) := by
  rcases taken_or request with ⟨body, act, runs, -, -⟩ | ⟨b, -, one, link⟩ | ⟨b, rfl, rfl⟩
  · rw [runs, runs, takeRequestWith_arrive _ code body act h]
  · exact absurd ⟨link, one⟩ apart
  · rw [exec_portReset h, exec_portReset (hears_arrive s hd.port), arrive_arrive]

/-! ## What a pass over the channels keeps of the part -/

theorem SystemKept.pass {f : Slot → State → State} (h : ∀ i s, SystemKept s (f i s)) (s : State) :
    SystemKept s (forSlots f s) :=
  forSlots_induct (P := SystemKept s) (fun i t kept => kept.trans (h i t)) (.refl s)

theorem systemKept_restartPresence (s : State) (p : Port) : SystemKept s (s.restartPresence p) := by
  simp [SystemKept]

theorem asRun_pass {f : Slot → State → State} (h : ∀ i s, (f i s).asRun = s.asRun) (s : State) :
    (forSlots f s).asRun = s.asRun :=
  forSlots_induct (P := fun t => t.asRun = s.asRun) (fun i t same => (h i t).trans same) rfl

/-- A pass at slot `i`: its own act meets the channel as the pass found it, in a part that the slots before it have kept,
and the slots after it keep what it leaves of the channel. -/
theorem pass_at {f : Slot → State → State} (acts : ∀ j s, SlotAct j s (f j s)) (i : Slot) (s : State) :
    ∃ u, Kept timersStand s u ∧ u.live i = s.live i ∧ (forSlots f s).live i = (f i u).live i := by
  refine forSlots_at (P := fun u => Kept timersStand s u ∧ u.live i = s.live i)
    (Q := fun t => ∃ u, Kept timersStand s u ∧ u.live i = s.live i ∧ t.live i = (f i u).live i) i
    (fun j t other ⟨kept, same⟩ => ⟨kept.trans (acts j t).toKept, ((acts j t).others i other.symm).trans same⟩)
    (fun u ⟨kept, same⟩ => ⟨u, kept, same, rfl⟩)
    (fun j t other ⟨u, kept, same, left⟩ => ⟨u, kept, same, ((acts j t).others i other.symm).trans left⟩)
    ⟨.refl s, rfl⟩

theorem Kept.present {s t : State} (h : Kept timersStand s t) (p : Port) : t.present p = s.present p :=
  congrArg Option.isSome (h.presence p)

/-! ## A swap to the port that is back (R126) -/

/-- The port `d` that is back takes the channel over: it is in DR under the other automation port, which is ABSENT. -/
def swapsBack (d : DrPort) (s : State) (l : Live) : Prop :=
  l.custody.state = .dr ∧ l.custody.custodian = some (drPort (otherDr d)) ∧ s.present (drPort (otherDr d)) = false

theorem drBack_of_swaps {d : DrPort} {i : Slot} {s : State} {l : Live} (hl : s.live i = some l) (swaps : swapsBack d s l) :
    s.drBack d i = s.enterTaking i d .swap .now := by
  obtain ⟨dr, custodian, absent⟩ := swaps
  simp [State.drBack, hl, dr, custodian, absent]

theorem drBack_of_not {d : DrPort} {i : Slot} {s : State} {l : Live} (hl : s.live i = some l) (rests : ¬swapsBack d s l) :
    s.drBack d i = s := by
  rw [State.drBack, onLive_of_some hl]
  refine if_neg fun swaps => rests ?_
  simpa [swapsBack, and_assoc] using swaps

theorem systemKept_drBack (d : DrPort) (i : Slot) (s : State) : SystemKept s (s.drBack d i) := by
  refine onLive_induct (P := SystemKept s) (fun _ => .refl s) fun l _ => ?_
  split
  · exact (enterTaking_rest s i d .swap .now).1
  · exact .refl s

theorem asRun_drBack (d : DrPort) (i : Slot) (s : State) : (s.drBack d i).asRun = s.asRun := by
  refine onLive_induct (P := fun t => t.asRun = s.asRun) (fun _ => rfl) fun l _ => ?_
  split
  · exact (enterTaking_rest s i d .swap .now).2.1
  · rfl

/-- CUSTODY_CHANGED, once raised, stands through the return of a port. -/
theorem custodyChangeRaised_drBack {s : State} (raised : CustodyChangeRaised s) (d : DrPort) (i : Slot) :
    CustodyChangeRaised (s.drBack d i) := by
  refine onLive_induct (P := CustodyChangeRaised) (fun _ => raised) fun l hl => ?_
  split
  · intro q
    rw [((enterTaking_rest s i d .swap .now).2.2.2.2.2.2.2 l hl).1 q]
  · exact raised

theorem arrive_dr {d : DrPort} {s : State} (absent : s.present (drPort d) = false) :
    s.arrive (drPort d) = forSlots (State.drBack d) (s.restartPresence (drPort d)) := by
  rw [State.arrive, absent]
  cases d <;> rfl

theorem present_restartPresence_eq (s : State) (p q : Port) :
    (s.restartPresence p).present q = if q = p then true else s.present q := by
  rw [State.present, State.restartPresence, State.port_setPort]
  split <;> rfl

theorem present_restartPresence_other (s : State) (d : DrPort) :
    (s.restartPresence (drPort d)).present (drPort (otherDr d)) = s.present (drPort (otherDr d)) := by
  rw [present_restartPresence_eq, if_neg (by cases d <;> decide)]

/-- The takeover by which the port that is back swaps itself in (R119, R126). -/
def State.swapBack (s : State) (i : Slot) (l : Live) (d : DrPort) : Takeover where
  prevState := .dr
  prevOutput := l.custody.output
  origin := .swap
  mode := .now
  firstChoice := d
  target := d
  attempt := 1
  cue := l.freshCue (s.reference.h + (s.params i).cueLead)

/-- The channel that a swap has started on. -/
def Live.swapping (l : Live) (k : Takeover) : Live :=
  { l with custody := { l.custody with
      state := .taking, cueCounter := k.cue.number, takeover := some k, switchDue := false } }

/-- Where an automation port comes back, the pass leaves each channel as it was, or a swap to that port started. -/
theorem live_arrive_dr {d : DrPort} {s : State} (absent : s.present (drPort d) = false) {i : Slot} {l : Live}
    (hl : s.live i = some l) :
    (¬swapsBack d s l → (s.arrive (drPort d)).live i = some l) ∧
    (swapsBack d s l → (s.arrive (drPort d)).live i = some (l.swapping (s.swapBack i l d))) := by
  obtain ⟨u, kept, same, left⟩ := pass_at (slotAct_drBack d) i (s.restartPresence (drPort d))
  have hu : u.live i = some l := by rw [same, State.live_restartPresence, hl]
  have present : u.present (drPort (otherDr d)) = s.present (drPort (otherDr d)) :=
    (kept.present _).trans (present_restartPresence_other s d)
  have swaps : swapsBack d u l ↔ swapsBack d s l := by rw [swapsBack, present]; rfl
  have reference : u.reference = s.reference := kept.reference.trans (State.reference_restartPresence s _)
  have params : u.params i = s.params i := (kept.params i).trans (State.params_restartPresence s _ i)
  rw [arrive_dr absent, left]
  refine ⟨fun rests => ?_, fun due => ?_⟩
  · rw [drBack_of_not hu fun h => rests (swaps.1 h), hu]
  · rw [drBack_of_swaps hu (swaps.2 due), enterTaking_channel hu, due.1, firstSwitchFrame, reference, params]
    rfl

/-- A swap started on any channel raises CUSTODY_CHANGED (R108). -/
theorem custodyChangeRaised_arrive_dr {d : DrPort} {s : State} (absent : s.present (drPort d) = false) {i : Slot}
    {l : Live} (hl : s.live i = some l) (due : swapsBack d s l) : CustodyChangeRaised (s.arrive (drPort d)) := by
  rw [arrive_dr absent]
  refine forSlots_at (P := fun u => u.live i = some l ∧ swapsBack d u l) (Q := CustodyChangeRaised) i
    (fun j u other ⟨hu, swaps⟩ => ?_) (fun u ⟨hu, swaps⟩ => ?_) (fun j u _ raised => custodyChangeRaised_drBack raised d j) ⟨?_, ?_⟩
  · have act := slotAct_drBack d j u
    refine ⟨(act.others i other.symm).trans hu, ?_⟩
    rw [swapsBack, act.toKept.present]
    exact swaps
  · rw [drBack_of_swaps hu swaps]
    intro q
    rw [((enterTaking_rest u i d .swap .now).2.2.2.2.2.2.2 l hu).1 q]
  · rw [State.live_restartPresence, hl]
  · rw [swapsBack, present_restartPresence_other]
    exact due

/-! ## The conditions at the return of Port L (R110, R112, R117) -/

/-- A custody record with M and L as a PRESENT Port L gives them: M the inverse of the health flag, L from the
behind-since frame. -/
def Custody.linked (h limit : Nat) (c : Custody) : Custody := { c with m := !c.healthy, l := lagging h limit c.behind }

theorem linkConditions_eq {s : State} (link : s.present .L = true) (i : Slot) :
    s.linkConditions i = (s.changeConditions i fun _ c => c.linked s.reference.h (s.params i).lagLimit).1 := by
  rw [State.linkConditions, link]
  rfl

theorem systemKept_carryOut (s : State) (i : Slot) (a : PolicyAction) : SystemKept s (s.carryOut i a).1 := by
  rcases carryOut_cases s i a with e | ⟨o, e, -⟩ | ⟨d, m, e, -⟩ <;> rw [e]
  · exact .refl s
  · simp [SystemKept]
  · exact (enterTaking_rest s i d .policy m).1

theorem systemKept_evaluate (s : State) (i : Slot) : SystemKept s (s.evaluate i).1 := by
  cases hl : s.live i with
  | none => rw [State.evaluate, hl]; exact .refl s
  | some l =>
    by_cases rests : l.custody.state = .main ∨ l.custody.state = .safe
    · rw [evaluate_of_rests hl rests]
      exact (systemKept_carryOut s i _).trans
        (onLive_induct (P := SystemKept _) (fun _ => .refl _) fun _ _ => systemKept_setCustody _ i _)
    · rw [evaluate_of_other hl (fun e => rests (.inl e)) fun e => rests (.inr e)]
      exact .refl s

theorem systemKept_changeConditions (s : State) (i : Slot) (f : Live → Custody → Custody) :
    SystemKept s (s.changeConditions i f).1 := by
  unfold State.changeConditions
  split
  · exact .refl s
  · dsimp only
    split
    · exact systemKept_setCustody s i _
    · exact (systemKept_setCustody s i _).trans (systemKept_evaluate _ i)

theorem asRun_changeConditions (s : State) (i : Slot) (f : Live → Custody → Custody) :
    (s.changeConditions i f).1.asRun = s.asRun := by
  cases hl : s.live i with
  | none => rw [State.changeConditions, hl]
  | some l => exact (changeConditions_rest hl f).1

/-- With no condition changed, or outside MAIN and SAFE, no evaluation is made: the changes alone are left (R117). -/
theorem changeConditions_unevaluated {s : State} {i : Slot} {l : Live} (hl : s.live i = some l)
    {f : Live → Custody → Custody} (rests : (f l l.custody).index = l.custody.index ∨
      ((f l l.custody).state ≠ .main ∧ (f l l.custody).state ≠ .safe)) :
    (s.changeConditions i f).1.live i = some { l with custody := f l l.custody } := by
  have changed : (s.setCustody i (f l l.custody)).live i = some { l with custody := f l l.custody } := by
    rw [setCustody_eq hl, State.live_setLive_self]
  unfold State.changeConditions
  simp only [hl]
  split
  · exact changed
  · rename_i moved
    obtain ⟨main, safe⟩ := rests.resolve_left moved
    rw [evaluate_of_other changed main safe]
    exact changed

/-- What the return of Port L leaves of a channel. -/
structure LinkReturned (p : ChannelParams) (frame : Option Nat) (h : Nat) (l l' : Live) : Prop where
  custody : l' = { l with custody := l'.custody }
  conditions : l'.custody = { l.custody.linked h p.lagLimit with
    state := l'.custody.state, lastEval := l'.custody.lastEval, cueCounter := l'.custody.cueCounter
    takeover := l'.custody.takeover, switchDue := l'.custody.switchDue }
  evaluated : EvaluatedOnChange p frame l.custody l'.custody
  unevaluated : (l.custody.linked h p.lagLimit).index = l.custody.index ∨
      (l.custody.state ≠ .main ∧ l.custody.state ≠ .safe) →
    l' = { l with custody := l.custody.linked h p.lagLimit }

theorem linkConditions_channel {s : State} (link : s.present .L = true) {i : Slot} {l : Live} (hl : s.live i = some l) :
    ∃ l', (s.linkConditions i).live i = some l' ∧ LinkReturned (s.params i) s.houseFrame s.reference.h l l' := by
  rw [linkConditions_eq link]
  obtain ⟨-, c, rest, -⟩ := changeConditions_rest hl fun _ c => c.linked s.reference.h (s.params i).lagLimit
  obtain ⟨l1, live, evaluated, conditions⟩ := changeConditions_channel hl
    (f := fun _ c => c.linked s.reference.h (s.params i).lagLimit) rfl rfl
  cases Option.some.inj (live.symm.trans rest)
  exact ⟨_, live, rfl, conditions, evaluated, fun rests =>
    Option.some.inj (live.symm.trans (changeConditions_unevaluated hl rests))⟩

theorem arrive_link {s : State} (absent : s.present .L = false) :
    s.arrive .L = forSlots State.linkConditions (s.restartPresence .L) := by
  simp [State.arrive, absent, State.presenceBack, asDr]

theorem live_arrive_link {s : State} (absent : s.present .L = false) {i : Slot} {l : Live} (hl : s.live i = some l) :
    ∃ l', (s.arrive .L).live i = some l' ∧ LinkReturned (s.params i) s.houseFrame s.reference.h l l' := by
  obtain ⟨u, kept, same, left⟩ := pass_at slotAct_linkConditions i (s.restartPresence .L)
  have hu : u.live i = some l := by rw [same, State.live_restartPresence, hl]
  have link : u.present .L = true := (kept.present .L).trans (by rw [present_restartPresence_eq, if_pos rfl])
  have reference : u.reference = s.reference := kept.reference.trans (State.reference_restartPresence s _)
  have params : u.params i = s.params i := (kept.params i).trans (State.params_restartPresence s _ i)
  have frame : u.houseFrame = s.houseFrame := by rw [State.houseFrame, reference, State.houseFrame]
  obtain ⟨l', live, returned⟩ := linkConditions_channel link hu
  rw [params, reference, frame] at returned
  exact ⟨l', by rw [arrive_link absent, left, live], returned⟩

/-! ## The statement (R110, R112, R117, R126, R209) -/

/-- What a change to PRESENT leaves outside the channels in service. -/
theorem arrive_rest (s : State) (p : Port) (absent : s.present p = false) :
    (s.arrive p).present p = true ∧ SystemKept s (s.arrive p) ∧ (s.arrive p).asRun = s.asRun ∧
    ∀ i, (s.arrive p).params i = s.params i ∧ (s.live i = none → (s.arrive p).live i = none) := by
  have kept : Kept timersStand (s.restartPresence p) (s.arrive p) := by
    rw [State.arrive, absent]
    exact kept_presenceBack _ p
  have back : SystemKept (s.restartPresence p) (s.arrive p) ∧ (s.arrive p).asRun = (s.restartPresence p).asRun := by
    cases p with
    | L =>
      rw [arrive_link absent]
      exact ⟨.pass (fun i u => systemKept_changeConditions u i _) _,
        asRun_pass (fun i u => asRun_changeConditions u i _) _⟩
    | A =>
      rw [show Port.A = drPort .A from rfl, arrive_dr absent]
      exact ⟨.pass (systemKept_drBack .A) _, asRun_pass (asRun_drBack .A) _⟩
    | B =>
      rw [show Port.B = drPort .B from rfl, arrive_dr absent]
      exact ⟨.pass (systemKept_drBack .B) _, asRun_pass (asRun_drBack .B) _⟩
  refine ⟨by rw [kept.present, present_restartPresence_eq, if_pos rfl], (systemKept_restartPresence s p).trans back.1,
    back.2.trans (State.asRun_restartPresence s p), fun i =>
    ⟨(kept.params i).trans (State.params_restartPresence s p i), fun idle => ?_⟩⟩
  have revisions := kept.revisions i
  rw [State.live_restartPresence, idle] at revisions
  exact Option.map_eq_none_iff.1 revisions

/-- Settles O3: the taking of a request repeats on what the change has left, the change is a pass over the channels, and
each pass is said of one channel. -/
theorem presenceChangePrecedesTheRequest : Obligations.PresenceChangePrecedesTheRequest := by
  unfold Obligations.PresenceChangePrecedesTheRequest
  refine ⟨fun c hd code s request apart h _ => exec_arrive request apart h, fun d s t absent change => ?_,
    fun s t absent change => ?_⟩
  · obtain ⟨present, system, log, channels⟩ := arrive_rest s (drPort d) absent
    rw [change]
    refine ⟨present, system, log, fun i => ⟨(channels i).1, (channels i).2, fun l hl => ?_⟩⟩
    obtain ⟨rests, swaps⟩ := live_arrive_dr absent hl
    exact ⟨rests, fun due => ⟨custodyChangeRaised_arrive_dr absent hl due, s.swapBack i l d, swaps due,
      rfl, rfl, rfl, rfl, rfl, rfl, rfl, rfl, rfl, rfl⟩⟩
  · obtain ⟨present, system, log, channels⟩ := arrive_rest s .L absent
    rw [change]
    refine ⟨present, system, log, fun i => ⟨(channels i).1, (channels i).2, fun l hl => ?_⟩⟩
    obtain ⟨l', live, custody, conditions, evaluated, unevaluated⟩ := live_arrive_link absent hl
    have m : l'.custody.m = !l.custody.healthy := by rw [conditions]; rfl
    have lag : l'.custody.l = lagging s.reference.h (s.params i).lagLimit l.custody.behind := by rw [conditions]; rfl
    refine ⟨l', live, m, lag, by rw [conditions]; rfl, by rw [conditions]; rfl, by rw [conditions]; rfl,
      by rw [conditions]; rfl, by rw [custody], by rw [custody], evaluated, fun mStands lStands => ?_, fun main safe => ?_⟩
    · have same : l.custody.linked s.reference.h (s.params i).lagLimit = l.custody := by
        rw [Custody.linked, ← m, mStands, ← lag, lStands]
      rw [unevaluated (.inl (by rw [same])), same]
    · rw [unevaluated (.inr ⟨main, safe⟩)]
      rfl

end Sys2Proof.Machine
end

section
/-! Request bodies on the line: each reader of R215 and R216 takes back what its writer has written. -/

namespace Sys2Proof

/-! ## Numbers and rows of items (R215) -/

theorem fits_iff {k n : Nat} : fits k n = true ↔ n < 256 ^ k := by simp [fits]

theorem fits_zero (k : Nat) : fits k 0 = true := fits_iff.2 (Nat.pow_pos (by decide))

/-- A number within its size is read back from its characters. -/
theorem takeNum_numChars {k n : Nat} (h : fits k n = true) (rest : List Byte) :
    takeNum k (numChars k n ++ rest) = some (n, rest) := by
  have read (k n : Nat) : takeNum k (numChars k n ++ rest) = some (n % 256 ^ k, rest) := by
    induction k generalizing n with
    | zero => simp [takeNum, numChars, Nat.mod_one]
    | succ k ih =>
      have digits : n / 256 ^ k % 256 * 256 ^ k + n % 256 ^ k = n % 256 ^ (k + 1) := by
        have split : n % (256 ^ k * 256) = n % 256 ^ k + 256 ^ k * (n / 256 ^ k % 256) := Nat.mod_mul
        rw [Nat.pow_succ, split, Nat.mul_comm, Nat.add_comm]
      rw [numChars, List.cons_append, takeNum]
      simp only [ih, BitVec.toNat_ofNat]
      exact congrArg (fun v => some (v, rest)) digits
  rw [read, Nat.mod_eq_of_lt (fits_iff.1 h)]

theorem takeNum_nil (k : Nat) : takeNum (k + 1) [] = none := rfl

theorem length_numChars (k n : Nat) : (numChars k n).length = k := by
  induction k with
  | zero => rfl
  | succ k ih => rw [numChars, List.length_cons, ih]

/-- A row of items is read back where each of them is. -/
theorem takeMany_flatMap {α : Type} {one : List Byte → Option (α × List Byte)} {chars : α → List Byte} {as : List α}
    (h : ∀ a ∈ as, ∀ rest, one (chars a ++ rest) = some (a, rest)) (rest : List Byte) :
    takeMany one as.length (as.flatMap chars ++ rest) = some (as, rest) := by
  induction as with
  | nil => rfl
  | cons a as ih =>
    have row := ih fun b member => h b (List.mem_cons_of_mem a member)
    have first := h a List.mem_cons_self
    simp [takeMany, first, row]

theorem takeNums_flatMap {k : Nat} {ns : List Nat} (h : ns.all (fits k) = true) (rest : List Byte) :
    takeMany (takeNum k) ns.length (ns.flatMap (numChars k) ++ rest) = some (ns, rest) :=
  takeMany_flatMap (fun n member => takeNum_numChars (List.all_eq_true.1 h n member)) rest

theorem takeChars_map {cs : List Nat} (h : cs.all (fits 1) = true) (rest : List Byte) :
    takeChars cs.length (cs.map (BitVec.ofNat 8) ++ rest) = some (cs, rest) := by
  induction cs with
  | nil => rfl
  | cons c cs ih =>
    obtain ⟨first, others⟩ : fits 1 c = true ∧ cs.all (fits 1) = true := by simpa using h
    have char : c < 256 := fits_iff.1 first
    simp [takeChars, ih others, char]

/-! ## Enumerated fields (R215) -/

/-- A list of values that names every value of its type, by codes below 254. -/
structure CodeTable {α : Type} (vs : List α) : Prop where
  complete : ∀ v, v ∈ vs
  short : vs.length ≤ 254

theorem rateTable : CodeTable rateCodes := ⟨fun v => by cases v <;> decide, by decide⟩
theorem actionTable : CodeTable actionCodes := ⟨fun v => by cases v <;> decide, by decide⟩
theorem batchKindTable : CodeTable batchKindCodes := ⟨fun v => by cases v <;> decide, by decide⟩
theorem modeTable : CodeTable modeCodes := ⟨fun v => by cases v <;> decide, by decide⟩
theorem armTable : CodeTable armCodes := ⟨fun v => by cases v <;> decide, by decide⟩
theorem custodyTable : CodeTable custodyCodes := ⟨fun v => by cases v <;> decide, by decide⟩
theorem outputTable : CodeTable outputCodes := ⟨fun v => by cases v <;> decide, by decide⟩
theorem portTable : CodeTable portCodes := ⟨fun v => by rcases v with - | - | - | - <;> decide, by decide⟩
theorem yesNoTable : CodeTable yesNoCodes := ⟨fun v => by cases v <;> decide, by decide⟩
theorem bitTable : CodeTable bitCodes := ⟨fun v => by cases v <;> decide, by decide⟩

section
variable {α : Type} [DecidableEq α] {vs : List α}

theorem ofCode_toCode (table : CodeTable vs) (o : Option α) : ofCode vs (toCode vs o) = o := by
  cases o with
  | none => exact List.getElem?_eq_none table.short
  | some v =>
    have inside : vs.idxOf v < vs.length := List.idxOf_lt_length_of_mem (table.complete v)
    exact (List.getElem?_eq_getElem inside).trans (congrArg some (List.getElem_idxOf inside))

theorem toCode_lt (table : CodeTable vs) (o : Option α) : toCode vs o < 255 := by
  cases o with
  | none => exact Nat.lt_succ_self 254
  | some v =>
    have := List.idxOf_lt_length_of_mem (table.complete v)
    have := table.short
    simp only [toCode]
    omega

theorem fits_toCode (table : CodeTable vs) (o : Option α) : fits 1 (toCode vs o) = true :=
  fits_iff.2 (Nat.lt_succ_of_lt (toCode_lt table o))

theorem patOf_patCode (table : CodeTable vs) (x : Pat α) : patOf vs (patCode vs x) = x := by
  have named (o : Option α) : toCode vs o ≠ 255 := Nat.ne_of_lt (toCode_lt table o)
  cases x with
  | any => rfl
  | is v => simp [patOf, patCode, named, ofCode_toCode table]
  | bad =>
    have outside : ofCode vs 254 = none := ofCode_toCode table none
    simp [patOf, patCode, outside]

theorem fits_patCode (table : CodeTable vs) (x : Pat α) : fits 1 (patCode vs x) = true := by
  cases x with
  | any => rfl
  | is v => exact fits_toCode table (some v)
  | bad => rfl

end

/-! ## Schedule times and event records (R215) -/

theorem takeSched_schedChars {t : SchedTime} (h : t.wf = true) (rest : List Byte) :
    takeSched (schedChars t ++ rest) = some (t, rest) := by
  simp only [SchedTime.wf, Bool.and_eq_true] at h
  obtain ⟨⟨⟨⟨day, hh⟩, mm⟩, ss⟩, ff⟩ := h
  simp [takeSched, schedChars, takeNum_numChars, day, hh, mm, ss, ff]

theorem takeSecondary_secondaryChars {x : Secondary} (h : x.wf = true) (rest : List Byte) :
    takeSecondary (secondaryChars x ++ rest) = some (x, rest) := by
  simp only [Secondary.wf, Bool.and_eq_true] at h
  obtain ⟨⟨trigger, offset⟩, duration⟩ := h
  simp [takeSecondary, secondaryChars, takeNum_numChars, trigger, offset, duration]

theorem takeSecondaries {xs : List Secondary} (h : xs.all Secondary.wf = true) (rest : List Byte) :
    takeMany takeSecondary xs.length (xs.flatMap secondaryChars ++ rest) = some (xs, rest) :=
  takeMany_flatMap (fun x member => takeSecondary_secondaryChars (List.all_eq_true.1 h x member)) rest

/-- The flags of a record and what is read from them. -/
theorem recordFlags_bits {f : RecordFields} (stray : f.strayFlags < 32) :
    fits 1 (recordFlags f) = true ∧ (recordFlags f % 2 = 1 ↔ f.kind = .live) ∧
    (recordFlags f / 2 % 2 = 1 ↔ f.fixed = true) ∧ (recordFlags f / 4 % 2 = 1 ↔ f.joinBit = true) ∧
    recordFlags f / 8 = f.strayFlags := by
  rw [fits_iff]
  unfold recordFlags
  cases f.kind <;> cases f.fixed <;> cases f.joinBit <;> simp <;> omega

end Sys2Proof
end

section
/-! Records, batch entries and request bodies: what is written for a well-formed request divides back into it (R215,
R216). -/

namespace Sys2Proof

/-! ## Event records (R215, log entry 13) -/

theorem bind_of_some {α β : Type} {x : Option α} {a : α} (h : x = some a) (f : α → Option β) : (x >>= f) = f a := by
  rw [h]; rfl

/-- The characters of a field that may be absent. -/
def optionalChars {α : Type} (chars : α → List Byte) (o : Option α) : List Byte := o.elim [] chars

theorem recordChars_eq (f : RecordFields) :
    recordChars f = numChars 4 f.eventId ++ numChars 1 (recordFlags f) ++ numChars 3 f.nominal ++
      optionalChars schedChars f.fixedStart ++
      optionalChars (fun cs => numChars 1 cs.length ++ cs.map (BitVec.ofNat 8)) f.mediaId ++
      optionalChars (numChars 4) f.inPoint ++ optionalChars (numChars 2) f.source ++
      numChars 1 f.secondaries.length ++ f.secondaries.flatMap secondaryChars := by
  obtain ⟨_, _, _, _, _, _, _ | _, _ | _, _ | _, _ | _, _⟩ := f <;> rfl

/-- A field that stands exactly where the flags say is read back where it stands, and passed over where it does not. -/
theorem takeOptional {α β : Type} {one : List Byte → Option (α × List Byte)} {chars : α → List Byte} {o : Option α}
    {c : Prop} [Decidable c] (stands : c ↔ o.isSome = true)
    (reads : ∀ a, o = some a → ∀ rest, one (chars a ++ rest) = some (a, rest)) (rest : List Byte)
    (k : Option α × List Byte → Option β) :
    (if c then (one (optionalChars chars o ++ rest)).map (fun r => (some r.1, r.2)) >>= k
      else some (none, optionalChars chars o ++ rest) >>= k) = k (o, rest) := by
  cases o with
  | none => exact if_neg fun h => nomatch stands.1 h
  | some a => exact (if_pos (stands.2 rfl)).trans (bind_of_some (by rw [optionalChars, Option.elim, reads a rfl]; rfl) k)

theorem takeRecordFields_recordChars {f : RecordFields} (h : f.wf = true) (rest : List Byte) :
    takeRecordFields (recordChars f ++ rest) = some (f, rest) := by
  rw [recordChars_eq]
  obtain ⟨id, kind, fixed, joinBit, stray, nominal, fixedStart, mediaId, inPoint, source, secondaries⟩ := f
  simp only [RecordFields.wf, Bool.and_eq_true, decide_eq_true_eq] at h
  obtain ⟨⟨⟨⟨⟨⟨⟨⟨⟨idFits, strayFits⟩, nominalFits⟩, start⟩, content⟩, chars⟩, inFits⟩, sourceFits⟩, rows⟩, length⟩ := h
  obtain ⟨flagsFit, isLive, isFixed, isJoin, isStray⟩ := recordFlags_bits (f := ⟨id, kind, fixed, joinBit, stray,
    nominal, fixedStart, mediaId, inPoint, source, secondaries⟩) strayFits
  have rowsFit : fits 1 secondaries.length = true := fits_iff.2 (by omega)
  have mediaFits : fits 1 (mediaId.getD []).length = true := fits_iff.2 (by omega)
  have timed : fixed = fixedStart.isSome ∧ ∀ t, fixedStart = some t → t.wf = true := by
    cases fixedStart <;> simp_all
  simp only [List.append_assoc]
  generalize recordFlags _ = flags at flagsFit isLive isFixed isJoin isStray ⊢
  refine (bind_of_some (takeNum_numChars idFits _) _).trans ?_
  refine (bind_of_some (takeNum_numChars flagsFit _) _).trans ?_
  refine (bind_of_some (takeNum_numChars nominalFits _) _).trans ?_
  refine (takeOptional (isFixed.trans (by rw [timed.1])) (fun t ht => takeSched_schedChars (timed.2 t ht)) _ _).trans ?_
  cases kind with
  | clip =>
    obtain ⟨⟨⟨cs, rfl⟩, n, rfl⟩, rfl⟩ : ((∃ cs, mediaId = some cs) ∧ ∃ n, inPoint = some n) ∧ source = none := by
      simpa [Option.isSome_iff_exists] using content
    have clip : ¬flags % 2 = 1 := fun h => nomatch isLive.1 h
    refine (if_neg clip).trans ?_
    refine (bind_of_some (takeNum_numChars mediaFits _) _).trans ?_
    refine (bind_of_some (takeChars_map chars _) _).trans ?_
    refine (bind_of_some rfl _).trans ?_
    refine (if_neg clip).trans ?_
    refine (bind_of_some (congrArg (Option.map fun r => (some r.1, r.2)) (takeNum_numChars inFits _)) _).trans ?_
    refine (if_neg clip).trans ?_
    refine (bind_of_some rfl _).trans ?_
    refine (bind_of_some (takeNum_numChars rowsFit _) _).trans ?_
    refine (bind_of_some (takeSecondaries rows _) _).trans ?_
    simp [clip, isFixed, isJoin, isStray]
  | live =>
    obtain ⟨⟨rfl, rfl⟩, n, rfl⟩ : (mediaId = none ∧ inPoint = none) ∧ ∃ n, source = some n := by
      simpa [Option.isSome_iff_exists] using content
    have live : flags % 2 = 1 := isLive.2 rfl
    refine (if_pos live).trans ?_
    refine (bind_of_some rfl _).trans ?_
    refine (if_pos live).trans ?_
    refine (bind_of_some rfl _).trans ?_
    refine (if_pos live).trans ?_
    refine (bind_of_some (congrArg (Option.map fun r => (some r.1, r.2)) (takeNum_numChars sourceFits _)) _).trans ?_
    refine (bind_of_some (takeNum_numChars rowsFit _) _).trans ?_
    refine (bind_of_some (takeSecondaries rows _) _).trans ?_
    simp [live, isFixed, isJoin, isStray]

end Sys2Proof
end

section
/-! The entries of ADD ENTRIES, with their staged records, divide back (R215, R216). -/

namespace Sys2Proof

/-! ## Staged records (R215, log entry 13) -/

theorem length_schedChars (t : SchedTime) : (schedChars t).length = 6 := by
  simp [schedChars, length_numChars]

theorem length_flatMap_secondaryChars (xs : List Secondary) : (xs.flatMap secondaryChars).length = 8 * xs.length := by
  induction xs with
  | nil => rfl
  | cons x xs ih =>
    have row : (secondaryChars x).length = 8 := by simp [secondaryChars, length_numChars]
    rw [List.flatMap_cons, List.length_append, row, ih, List.length_cons]
    omega

/-- A well-formed record is counted in its one length character. -/
theorem length_recordChars_lt {f : RecordFields} (h : f.wf = true) : (recordChars f).length < 256 := by
  have rows : (f.mediaId.getD []).length + 8 * f.secondaries.length ≤ 200 := by
    simp only [RecordFields.wf, Bool.and_eq_true, decide_eq_true_eq] at h
    exact h.2
  have start : (optionalChars schedChars f.fixedStart).length ≤ 6 := by
    cases f.fixedStart <;> simp [optionalChars, length_schedChars]
  have media : (optionalChars (fun cs => numChars 1 cs.length ++ cs.map (BitVec.ofNat 8)) f.mediaId).length ≤
      1 + (f.mediaId.getD []).length := by
    cases f.mediaId <;> simp [optionalChars, length_numChars]
  have inPoint : (optionalChars (numChars 4) f.inPoint).length ≤ 4 := by
    cases f.inPoint <;> simp [optionalChars, length_numChars]
  have source : (optionalChars (numChars 2) f.source).length ≤ 2 := by
    cases f.source <;> simp [optionalChars, length_numChars]
  rw [recordChars_eq]
  simp only [List.length_append, length_numChars, length_flatMap_secondaryChars]
  omega

/-- The record that a run of characters holds: its fields, or the characters themselves where they have none. -/
def recordOf (cs : List Byte) : StagedRecord :=
  match takeRecordFields cs with
  | some (f, []) => .fields f
  | _ => .unreadable cs

theorem takeStaged_counted {cs : List Byte} (short : cs.length < 256) (rest : List Byte) :
    takeStaged (numChars 1 cs.length ++ cs ++ rest) = some (recordOf cs, rest) := by
  rw [List.append_assoc]
  refine (bind_of_some (takeNum_numChars (fits_iff.2 (by omega)) _) _).trans ?_
  refine (if_neg (by simp)).trans ?_
  simp only [List.take_left', List.drop_left']
  rfl

theorem takeStaged_stagedChars {r : StagedRecord} (h : Entry.wf.recWf canReadRecord r = true) (rest : List Byte) :
    takeStaged (stagedChars r ++ rest) = some (r, rest) := by
  cases r with
  | fields f =>
    have readable : recordOf (recordChars f) = .fields f := by
      have back := takeRecordFields_recordChars h []
      rw [List.append_nil] at back
      rw [recordOf, back]
    rw [stagedChars, takeStaged_counted (length_recordChars_lt h), readable]
  | unreadable cs =>
    obtain ⟨short, unread⟩ : cs.length < 256 ∧ canReadRecord cs = false := by
      simpa [Entry.wf.recWf] using h
    have unreadable : recordOf cs = .unreadable cs := by
      unfold canReadRecord at unread
      unfold recordOf
      split at unread
      · cases unread
      · simp_all
    rw [stagedChars, takeStaged_counted short, unreadable]

/-! ## Entries -/

/-- An id of 0 is none, so any other is read back as it was given. -/
theorem optId_getD {o : Option Nat} (h : ∀ id, o = some id → id ≠ 0 ∧ fits 4 id = true) :
    fits 4 (o.getD 0) = true ∧ optId (o.getD 0) = o := by
  cases o with
  | none => exact ⟨rfl, rfl⟩
  | some id =>
    obtain ⟨named, size⟩ := h id rfl
    exact ⟨size, if_neg named⟩

/-- One entry before others: its kind is one of the three, and the others are read after it. -/
theorem takeEntries_entryChars {e : Entry} (h : e.wf canReadRecord = true) (n : Nat) (rest : List Byte) :
    takeEntries (n + 1) (entryChars e ++ rest) =
      (takeEntries n rest).map fun r => ((e :: r.1.1, r.1.2), r.2) := by
  have kinds (k : Nat) (small : k ≤ 2) (bs : List Byte) (read : takeEntry k bs = some (e, rest)) :
      takeEntries (n + 1) (numChars 1 k ++ bs) = (takeEntries n rest).map fun r => ((e :: r.1.1, r.1.2), r.2) := by
    have kind : fits 1 k = true := fits_iff.2 (by omega)
    rw [takeEntries, takeNum_numChars kind]
    simp only [if_neg (show ¬2 < k by omega), read]
    rcases takeEntries n rest with _ | ⟨⟨es, bad⟩, rest⟩ <;> rfl
  cases e with
  | insert place r =>
    simp only [Entry.wf, Bool.and_eq_true] at h
    obtain ⟨placed, record⟩ := h
    have sized := optId_getD (o := place) (by rintro id rfl; simpa using placed)
    simp only [entryChars, List.append_assoc]
    refine kinds 0 (by decide) _ ?_
    simp [takeEntry, takeNum_numChars, sized, takeStaged_stagedChars record]
  | replace id r =>
    simp only [Entry.wf, Bool.and_eq_true] at h
    obtain ⟨size, record⟩ := h
    simp only [entryChars, List.append_assoc]
    refine kinds 1 (by decide) _ ?_
    simp [takeEntry, takeNum_numChars, size, takeStaged_stagedChars record]
  | delete id =>
    simp only [entryChars, List.append_assoc]
    refine kinds 2 (by decide) _ ?_
    have size : fits 4 id = true := h
    simp [takeEntry, takeNum_numChars, size]

/-- The count and characters that an entry of another kind adds after the entries before it. -/
theorem takeEntries_bad (bad : Bool) :
    takeEntries (if bad then 1 else 0) (if bad then numChars 1 254 else []) = some (([], bad), []) := by
  cases bad <;> rfl

theorem takeEntries_flatMap {es : List Entry} (h : es.all (Entry.wf canReadRecord) = true) (bad : Bool) :
    takeEntries (es.length + (if bad then 1 else 0))
      (es.flatMap entryChars ++ if bad then numChars 1 254 else []) = some ((es, bad), []) := by
  induction es with
  | nil => simpa using takeEntries_bad bad
  | cons e es ih =>
    obtain ⟨first, others⟩ : e.wf canReadRecord = true ∧ es.all (Entry.wf canReadRecord) = true := by simpa using h
    rw [List.flatMap_cons, List.append_assoc, List.length_cons, Nat.add_right_comm, takeEntries_entryChars first,
      ih others]
    rfl

end Sys2Proof
end

section
/-! Keep masks (R216): a field under a set bit is kept, and one under a clear bit is given. -/

namespace Sys2Proof

/-- A field's bit in its keep mask. -/
def Keep.kept {α : Type} : Keep α → Nat
  | .keep => 1
  | .give _ => 0

section
variable {α : Type}

theorem keepBit_eq (i : Nat) (k : Keep α) : keepBit i k = 2 ^ i * k.kept := by
  cases k <;> simp [keepBit, Keep.kept]

theorem Keep.kept_le (k : Keep α) : k.kept ≤ 1 := by
  cases k <;> simp [Keep.kept]

/-- A field is read back when the mask holds its bit and, if it is given, its value is. -/
theorem keepOf_eq {mask i : Nat} {k : Keep α} {v : α} (bit : mask / 2 ^ i % 2 = k.kept)
    (value : ∀ a, k = .give a → v = a) : keepOf mask i v = k := by
  cases k with
  | keep => exact if_pos bit
  | give a =>
    have clear : ¬mask / 2 ^ i % 2 = 1 := by rw [bit, Keep.kept]; decide
    exact (if_neg clear).trans (congrArg _ (value a rfl))

theorem read_sent {code : α → Nat} {read : Nat → α} (back : ∀ a, read (code a) = a) {k : Keep α} {a : α}
    (h : k = .give a) : read (k.sent code) = a := by
  rw [h]; exact back a

theorem fits_sent {n : Nat} {code : α → Nat} (h : ∀ a, fits n (code a) = true) (k : Keep α) :
    fits n (k.sent code) = true := by
  cases k with
  | keep => exact fits_zero n
  | give a => exact h a

end

theorem read_sent_id {k : Keep Nat} {n : Nat} (h : k = .give n) : k.sent id = n := by
  rw [h]; rfl

theorem fits_sent_id {n : Nat} {k : Keep Nat} (h : k.fits n = true) : fits n (k.sent id) = true := by
  cases k with
  | keep => exact fits_zero n
  | give v => exact h

theorem takeNum_numChars_end {k n : Nat} (h : fits k n = true) : takeNum k (numChars k n) = some (n, []) := by
  have back := takeNum_numChars h []
  rwa [List.append_nil] at back

/-! ## CONFIGURE HOUSE -/

/-- The keep mask of CONFIGURE HOUSE. -/
def houseMask (f : HouseFields) : Nat :=
  keepBit 0 f.rate + keepBit 1 f.linkTimeout + keepBit 2 f.autoTimeout + keepBit 3 f.leaseTimeout +
    keepBit 4 f.holdLimit + keepBit 5 f.freeze + (if f.reserved then 64 else 0)

theorem houseMask_bits (f : HouseFields) :
    fits 1 (houseMask f) = true ∧ decide (64 ≤ houseMask f) = f.reserved ∧
    houseMask f / 2 ^ 0 % 2 = f.rate.kept ∧ houseMask f / 2 ^ 1 % 2 = f.linkTimeout.kept ∧
    houseMask f / 2 ^ 2 % 2 = f.autoTimeout.kept ∧ houseMask f / 2 ^ 3 % 2 = f.leaseTimeout.kept ∧
    houseMask f / 2 ^ 4 % 2 = f.holdLimit.kept ∧ houseMask f / 2 ^ 5 % 2 = f.freeze.kept := by
  have rate := f.rate.kept_le
  have link := f.linkTimeout.kept_le
  have auto := f.autoTimeout.kept_le
  have lease := f.leaseTimeout.kept_le
  have hold := f.holdLimit.kept_le
  have freeze := f.freeze.kept_le
  simp only [houseMask, keepBit_eq, fits_iff]
  cases f.reserved <;> simp <;> omega

theorem takeHouse_houseChars {f : HouseFields} (h : f.wf = true) : takeHouse (houseChars f) = some (f, []) := by
  simp only [HouseFields.wf, Bool.and_eq_true] at h
  obtain ⟨⟨⟨link, auto⟩, lease⟩, hold⟩ := h
  obtain ⟨mask, reserved, b0, b1, b2, b3, b4, b5⟩ := houseMask_bits f
  simp only [houseChars, List.append_assoc]
  change takeHouse (numChars 1 (houseMask f) ++ _) = _
  simp [takeHouse, takeNum_numChars, takeNum_numChars_end, mask, fits_sent (fits_toCode rateTable),
    fits_sent (fits_toCode yesNoTable), fits_sent_id, link, auto, lease, hold, reserved,
    keepOf_eq b0 fun _ => read_sent (ofCode_toCode rateTable), keepOf_eq b1 fun _ => read_sent_id,
    keepOf_eq b2 fun _ => read_sent_id, keepOf_eq b3 fun _ => read_sent_id, keepOf_eq b4 fun _ => read_sent_id,
    keepOf_eq b5 fun _ => read_sent (ofCode_toCode yesNoTable)]

/-! ## CONFIGURE CHANNEL -/

/-- The keep mask of CONFIGURE CHANNEL. -/
def channelMask (f : ChannelFields) : Nat :=
  keepBit 0 f.serviceId + keepBit 1 f.preferred + keepBit 2 f.policy + keepBit 3 f.guard +
    keepBit 4 f.cueLead + keepBit 5 f.horizon + keepBit 6 f.lagLimit + keepBit 7 f.retention + keepBit 8 f.quota +
    (if f.reserved then 512 else 0)

theorem channelMask_bits (f : ChannelFields) :
    fits 2 (channelMask f) = true ∧ decide (512 ≤ channelMask f) = f.reserved ∧
    channelMask f / 2 ^ 0 % 2 = f.serviceId.kept ∧ channelMask f / 2 ^ 1 % 2 = f.preferred.kept ∧
    channelMask f / 2 ^ 2 % 2 = f.policy.kept ∧ channelMask f / 2 ^ 3 % 2 = f.guard.kept ∧
    channelMask f / 2 ^ 4 % 2 = f.cueLead.kept ∧ channelMask f / 2 ^ 5 % 2 = f.horizon.kept ∧
    channelMask f / 2 ^ 6 % 2 = f.lagLimit.kept ∧ channelMask f / 2 ^ 7 % 2 = f.retention.kept ∧
    channelMask f / 2 ^ 8 % 2 = f.quota.kept := by
  have service := f.serviceId.kept_le
  have preferred := f.preferred.kept_le
  have policy := f.policy.kept_le
  have guard := f.guard.kept_le
  have lead := f.cueLead.kept_le
  have horizon := f.horizon.kept_le
  have lag := f.lagLimit.kept_le
  have retention := f.retention.kept_le
  have quota := f.quota.kept_le
  simp only [channelMask, keepBit_eq, fits_iff]
  cases f.reserved <;> simp <;> omega

theorem drPortOf_drPortCode (o : Option DrPort) : drPortOf (drPortCode o) = o := by
  rcases o with - | - | - <;> rfl

theorem fits_drPortCode (o : Option DrPort) : fits 1 (drPortCode o) = true := by
  rcases o with - | - | - <;> rfl

/-- The 16 codes that a policy table sends. -/
def policyCodes : Keep (List (Option PolicyAction)) → List Nat
  | .keep => List.replicate 16 0
  | .give p => p.map (toCode actionCodes)

theorem policyCodes_fit (k : Keep (List (Option PolicyAction))) : (policyCodes k).all (fits 1) = true := by
  cases k with
  | keep => rfl
  | give p => simp [policyCodes, fits_toCode actionTable]

/-- A table given is read back from its codes. -/
theorem policyCodes_back {k : Keep (List (Option PolicyAction))} {p : List (Option PolicyAction)} (h : k = .give p) :
    (policyCodes k).map (ofCode actionCodes) = p := by
  subst h
  simp [policyCodes, Function.comp_def, ofCode_toCode actionTable]

/-- The characters of a well-formed CONFIGURE CHANNEL, by its mask and its policy codes. -/
theorem channelChars_eq (f : ChannelFields) :
    channelChars f = numChars 2 f.channel ++ (numChars 1 (toCode yesNoCodes f.inService) ++
      (numChars 2 (channelMask f) ++ (numChars 2 (f.serviceId.sent id) ++ (numChars 1 (f.preferred.sent drPortCode) ++
      ((policyCodes f.policy).map (BitVec.ofNat 8) ++ (numChars 3 (f.guard.sent id) ++
      (numChars 2 (f.cueLead.sent id) ++ (numChars 2 (f.horizon.sent id) ++ (numChars 3 (f.lagLimit.sent id) ++
      (numChars 2 (f.retention.sent id) ++ numChars 2 (f.quota.sent id))))))))))) := by
  have policy : (policyCodes f.policy).map (BitVec.ofNat 8) = match f.policy with
      | .keep => List.replicate 16 (0 : Byte)
      | .give p => p.map (fun a => BitVec.ofNat 8 (toCode actionCodes a)) := by
    cases f.policy with
    | keep => rfl
    | give p => exact List.map_map
  simp only [channelChars, policy, List.append_assoc]
  rfl

theorem takeChannel_channelChars {f : ChannelFields} (h : f.wf = true) :
    takeChannel (channelChars f) = some (f, []) := by
  simp only [ChannelFields.wf, Bool.and_eq_true] at h
  obtain ⟨⟨⟨⟨⟨⟨⟨⟨channel, service⟩, guard⟩, lead⟩, horizon⟩, lag⟩, retention⟩, quota⟩, sixteen⟩ := h
  obtain ⟨mask, reserved, b0, b1, b2, b3, b4, b5, b6, b7, b8⟩ := channelMask_bits f
  have length : (policyCodes f.policy).length = 16 := by
    cases hp : f.policy <;> simp_all [policyCodes]
  have policy (rest : List Byte) := takeChars_map (policyCodes_fit f.policy) rest
  rw [length] at policy
  rw [channelChars_eq]
  refine (bind_of_some (takeNum_numChars channel _) _).trans ?_
  refine (bind_of_some (takeNum_numChars (fits_toCode yesNoTable _) _) _).trans ?_
  refine (bind_of_some (takeNum_numChars mask _) _).trans ?_
  refine (bind_of_some (takeNum_numChars (fits_sent_id service) _) _).trans ?_
  refine (bind_of_some (takeNum_numChars (fits_sent fits_drPortCode _) _) _).trans ?_
  refine (bind_of_some (policy _) _).trans ?_
  refine (bind_of_some (takeNum_numChars (fits_sent_id guard) _) _).trans ?_
  refine (bind_of_some (takeNum_numChars (fits_sent_id lead) _) _).trans ?_
  refine (bind_of_some (takeNum_numChars (fits_sent_id horizon) _) _).trans ?_
  refine (bind_of_some (takeNum_numChars (fits_sent_id lag) _) _).trans ?_
  refine (bind_of_some (takeNum_numChars (fits_sent_id retention) _) _).trans ?_
  refine (bind_of_some (takeNum_numChars_end (fits_sent_id quota)) _).trans ?_
  simp only [reserved, ofCode_toCode yesNoTable, keepOf_eq b0 fun _ => read_sent_id,
    keepOf_eq b1 fun _ => read_sent drPortOf_drPortCode, keepOf_eq b2 fun _ => policyCodes_back,
    keepOf_eq b3 fun _ => read_sent_id, keepOf_eq b4 fun _ => read_sent_id, keepOf_eq b5 fun _ => read_sent_id,
    keepOf_eq b6 fun _ => read_sent_id, keepOf_eq b7 fun _ => read_sent_id, keepOf_eq b8 fun _ => read_sent_id]
  rfl

end Sys2Proof
end

section
/-! Each request's body divides back into its fields (R216), and so into its request (R207). -/

namespace Sys2Proof

/-! ## Bodies of fixed layout -/

theorem takeSched_end {t : SchedTime} (h : t.wf = true) : takeSched (schedChars t) = some (t, []) := by
  have back := takeSched_schedChars h []
  rwa [List.append_nil] at back

theorem takeTake_chars {f : TakeFields} (channel : fits 2 f.channel = true) :
    takeTake (numChars 2 f.channel ++ numChars 1 (toCode modeCodes f.mode)) = some (f, []) := by
  simp [takeTake, takeNum_numChars, takeNum_numChars_end, channel, fits_toCode modeTable, ofCode_toCode modeTable]

theorem takeReady_chars {f : ReadyFields} (h : (fits 2 f.channel && fits 2 f.number) = true) :
    takeReady (numChars 2 f.channel ++ numChars 2 f.number) = some (f, []) := by
  obtain ⟨channel, number⟩ := Bool.and_eq_true_iff.1 h
  simp [takeReady, takeNum_numChars, takeNum_numChars_end, channel, number]

theorem takeRelease_chars {f : ReleaseFields} (h : (fits 2 f.channel && f.tEnd.wf) = true) :
    takeRelease (numChars 2 f.channel ++ schedChars f.tEnd) = some (f, []) := by
  obtain ⟨channel, tEnd⟩ := Bool.and_eq_true_iff.1 h
  simp [takeRelease, takeNum_numChars, takeSched_end, channel, tEnd]

theorem takeReturn_chars {f : ReturnFields}
    (h : (fits 2 f.channel && f.frame.wf && fits 4 f.eventId && fits 4 f.offset) = true) :
    takeReturn (numChars 2 f.channel ++ schedChars f.frame ++ numChars 4 f.eventId ++ numChars 4 f.offset) =
      some (f, []) := by
  simp only [Bool.and_eq_true] at h
  obtain ⟨⟨⟨channel, frame⟩, event⟩, offset⟩ := h
  simp [takeReturn, takeNum_numChars, takeNum_numChars_end, takeSched_schedChars, channel, frame, event, offset]

theorem takeMark_chars {f : MarkFields} (value : fits 6 f.value = true) :
    takeMark (numChars 6 f.value ++ numChars 1 (toCode yesNoCodes f.follow)) = some (f, []) := by
  simp [takeMark, takeNum_numChars, takeNum_numChars_end, value, fits_toCode yesNoTable, ofCode_toCode yesNoTable]

theorem takeMatch_matchChars (f : MatchFields) : takeMatch (matchChars f) = some (f, []) := by
  simp [takeMatch, matchChars, takeNum_numChars, takeNum_numChars_end, fits_patCode custodyTable,
    fits_patCode portTable, fits_patCode outputTable, fits_patCode bitTable, fits_patCode yesNoTable,
    patOf_patCode custodyTable, patOf_patCode portTable, patOf_patCode outputTable, patOf_patCode bitTable,
    patOf_patCode yesNoTable]

theorem takeRead_readChars {f : ReadFields} (channel : fits 2 f.channel = true) (count : fits 1 f.count = true)
    (start : ∀ id, f.start = some id → id ≠ 0 ∧ fits 4 id = true) : takeRead (readChars f) = some (f, []) := by
  obtain ⟨size, back⟩ := optId_getD start
  simp [takeRead, readChars, takeNum_numChars, takeNum_numChars_end, channel, count, size, back]

/-! ## Bodies with a part that may be absent -/

theorem takeOpen_openChars {f : OpenFields} (channel : fits 2 f.channel = true)
    (based : f.kind = some .resync ↔ f.base = none) (size : ∀ r, f.base = some r → fits 4 r = true) :
    takeOpen (openChars f) = some (f, []) := by
  obtain ⟨slot, kind, base⟩ := f
  cases base with
  | none =>
    have resync : kind = some .resync := based.2 rfl
    simp [takeOpen, openChars, takeNum_numChars, takeNum_numChars_end, channel, fits_toCode batchKindTable,
      ofCode_toCode batchKindTable, resync]
  | some r =>
    have edit : ¬kind = some .resync := fun h => nomatch based.1 h
    simp [takeOpen, openChars, takeNum_numChars, takeNum_numChars_end, channel, fits_toCode batchKindTable,
      ofCode_toCode batchKindTable, edit, size]

theorem takeClose_closeChars {p : Port} {f : CloseFields} (channel : fits 2 f.channel = true)
    (declares : p = .L ↔ f.declared.isSome = true) (size : ∀ r, f.declared = some r → fits 4 r = true) :
    takeClose p (closeChars f) = some (f, []) := by
  obtain ⟨slot, declared⟩ := f
  cases declared with
  | none =>
    have other : ¬p = .L := fun h => nomatch declares.1 h
    simp [takeClose, closeChars, takeNum_numChars_end, channel, other]
  | some r =>
    simp [takeClose, closeChars, takeNum_numChars, takeNum_numChars_end, channel, declares.2 rfl, size]

theorem takeCursor_cursorChars {f : CursorFields} (channel : fits 2 f.channel = true)
    (time : ∀ t, f.frame = .time t → t.wf = true) : takeCursor (cursorChars f) = some (f, []) := by
  obtain ⟨slot, _ | t | _⟩ := f
  · simp [takeCursor, cursorChars, takeNum_numChars, takeNum_numChars_end, channel, fits_iff]
  · simp [takeCursor, cursorChars, takeNum_numChars, channel, fits_iff, takeSched_end (time t rfl)]
  · simp [takeCursor, cursorChars, takeNum_numChars, takeNum_numChars_end, channel, fits_iff]

/-! ## Bodies with a row of items -/

theorem takeNums_end {k : Nat} {ns : List Nat} (h : ns.all (fits k) = true) :
    takeMany (takeNum k) ns.length (ns.flatMap (numChars k)) = some (ns, []) := by
  have back := takeNums_flatMap h []
  rwa [List.append_nil] at back

/-- The size and count of a well-formed set. -/
theorem setWf_iff {p : Port} {ms : List Nat} :
    setWf p ms = true ↔ fits 1 ms.length = true ∧ ms.all (fits (memberSize p)) = true := by
  simp [setWf, fits_iff, memberSize]

theorem takePresence_chars {es : List PresenceEntry}
    (h : (decide (es.length < 256) && es.all PresenceEntry.wf) = true) :
    takePresence (numChars 1 es.length ++ es.flatMap presenceEntryChars) = some (es, []) := by
  obtain ⟨count, sized⟩ := Bool.and_eq_true_iff.1 h
  have entry (e : PresenceEntry) (member : e ∈ es) (rest : List Byte) :
      takePresenceEntry (presenceEntryChars e ++ rest) = some (e, rest) := by
    obtain ⟨service, revision⟩ := Bool.and_eq_true_iff.1 (List.all_eq_true.1 sized e member)
    simp [takePresenceEntry, presenceEntryChars, takeNum_numChars, service, revision, fits_toCode bitTable,
      ofCode_toCode bitTable]
  have row := takeMany_flatMap entry []
  rw [List.append_nil] at row
  have counted : fits 1 es.length = true := fits_iff.2 (of_decide_eq_true count)
  exact (bind_of_some (takeNum_numChars counted _) _).trans row

theorem takeArm_armChars {f : ArmFields} (h : setWf .A f.slots = true) : takeArm (armChars f) = some (f, []) := by
  obtain ⟨count, slots⟩ : fits 1 f.slots.length = true ∧ f.slots.all (fits 1) = true := setWf_iff.1 h
  simp [takeArm, armChars, takeNum_numChars, count, takeNums_end slots, fits_toCode armTable, ofCode_toCode armTable]

theorem takeClear_clearChars {f : ClearFields} (h : setWf .A f.slots = true) :
    takeClear (clearChars f) = some (f, []) := by
  obtain ⟨count, slots⟩ : fits 1 f.slots.length = true ∧ f.slots.all (fits 1) = true := setWf_iff.1 h
  simp [takeClear, clearChars, takeNum_numChars, takeNum_numChars_end, count, takeNums_flatMap slots,
    fits_toCode yesNoTable, ofCode_toCode yesNoTable]

theorem takeAsRun_asRunChars {p : Port} {f : AsRunFields} (count : fits 1 f.count = true)
    (set : ∀ ms, f.set = .members ms → setWf p ms = true) : takeAsRun p (asRunChars p f) = some (f, []) := by
  obtain ⟨n, _ | ms | _⟩ := f
  · simp [takeAsRun, asRunChars, takeNum_numChars, takeNum_numChars_end, count, fits_iff]
  · obtain ⟨size, members⟩ := setWf_iff.1 (set ms rfl)
    simp [takeAsRun, asRunChars, takeNum_numChars, count, fits_iff, size, takeNums_end members]
  · simp [takeAsRun, asRunChars, takeNum_numChars, takeNum_numChars_end, count, fits_iff]

theorem takeAdd_addChars {f : AddFields} (channel : fits 2 f.channel = true) (short : f.entries.length < 255)
    (entries : f.entries.all (Entry.wf canReadRecord) = true) : takeAdd (addChars f) = some (f, []) := by
  have count : fits 1 (f.entries.length + if f.badKind then 1 else 0) = true := by
    rw [fits_iff]; split <;> omega
  simp only [addChars, List.append_assoc]
  refine (bind_of_some (takeNum_numChars channel _) _).trans ?_
  refine (bind_of_some (takeNum_numChars count _) _).trans ?_
  exact bind_of_some (takeEntries_flatMap entries f.badKind) _

end Sys2Proof
end

section
/-! The body written for a well-formed request divides back into it (R207, R215, R216). -/

namespace Sys2Proof

/-- A well-formed body divides back as a whole when its fields do, given that a misfit's characters are one. -/
theorem whole_bodyChars {α : Type} {ok : α → Bool} {take : List Byte → Option (α × List Byte)} {wrong : List Byte}
    {chars : α → List Byte} {headed : Bool} {b : Body α} (h : (headed && b.wf ok) = true)
    (misfit : whole (take wrong) = .misfit) (fields : ∀ f, ok f = true → take (chars f) = some (f, [])) :
    whole (take (bodyChars wrong chars b)) = b := by
  cases b with
  | misfit => exact misfit
  | fields f =>
    obtain ⟨-, body⟩ := Bool.and_eq_true_iff.1 h
    rw [bodyChars, fields f body, whole]

/-- The body of a request that has no field is empty, and any other is a misfit. -/
theorem whole_emptyBody (b : Body Unit) : whole (some ((), bodyChars [0] (fun _ => []) b)) = b := by
  cases b <;> rfl

theorem presence_divides {hd : Head} {b : Body (List PresenceEntry)}
    (h : (Instr.presence hd b).wf canReadRecord = true) {code : Nat} {bs : List Byte}
    (encoded : encodeRequest (.presence hd b) = some (hd, code, bs)) :
    decodeRequest hd.port code hd.tag bs = .presence hd b := by
  obtain ⟨port, tag⟩ := hd
  cases encoded
  obtain ⟨-, body⟩ := Bool.and_eq_true_iff.1 h
  cases port with
  | L => exact congrArg (Instr.presence _) (whole_bodyChars h rfl fun _ => takePresence_chars)
  | A => exact congrArg (Instr.presence _) (of_decide_eq_true body).symm
  | B => exact congrArg (Instr.presence _) (of_decide_eq_true body).symm

theorem openBatch_divides {hd : Head} {b : Body OpenFields} (h : (Instr.openBatch hd b).wf canReadRecord = true) :
    whole (takeOpen (bodyChars [] openChars b)) = b := by
  refine whole_bodyChars h rfl fun f wf => ?_
  obtain ⟨channel, base⟩ := Bool.and_eq_true_iff.1 wf
  exact takeOpen_openChars channel (by cases hb : f.base <;> simp_all) (by rintro r hr; simp_all)

theorem addEntries_divides {hd : Head} {b : Body AddFields} (h : (Instr.addEntries hd b).wf canReadRecord = true) :
    whole (takeAdd (bodyChars [] addChars b)) = b := by
  refine whole_bodyChars h rfl fun f wf => ?_
  simp only [Bool.and_eq_true, decide_eq_true_eq] at wf
  obtain ⟨⟨channel, short⟩, entries⟩ := wf
  exact takeAdd_addChars channel short entries

theorem closeBatch_divides {hd : Head} {b : Body CloseFields} (h : (Instr.closeBatch hd b).wf canReadRecord = true) :
    whole (takeClose hd.port (bodyChars [] closeChars b)) = b := by
  refine whole_bodyChars h rfl fun f wf => ?_
  obtain ⟨channel, declared⟩ := Bool.and_eq_true_iff.1 wf
  exact takeClose_closeChars channel (by cases hf : f.declared <;> simp_all) (by rintro r hr; simp_all)

theorem readEvents_divides {hd : Head} {b : Body ReadFields} (h : (Instr.readEvents hd b).wf canReadRecord = true) :
    whole (takeRead (bodyChars [] readChars b)) = b := by
  refine whole_bodyChars h rfl fun f wf => ?_
  simp only [Bool.and_eq_true] at wf
  obtain ⟨⟨channel, count⟩, start⟩ := wf
  exact takeRead_readChars channel count fun id named => by simpa [named] using start

theorem readCursor_divides {hd : Head} {b : Body CursorFields} (h : (Instr.readCursor hd b).wf canReadRecord = true) :
    whole (takeCursor (bodyChars [] cursorChars b)) = b := by
  refine whole_bodyChars h rfl fun f wf => ?_
  obtain ⟨channel, frame⟩ := Bool.and_eq_true_iff.1 wf
  exact takeCursor_cursorChars channel fun t timed => by simpa [timed] using frame

theorem readAsRun_divides {hd : Head} {b : Body AsRunFields} (h : (Instr.readAsRun hd b).wf canReadRecord = true) :
    whole (takeAsRun hd.port (bodyChars [] (asRunChars hd.port) b)) = b := by
  refine whole_bodyChars h rfl fun f wf => ?_
  obtain ⟨count, set⟩ := Bool.and_eq_true_iff.1 wf
  exact takeAsRun_asRunChars count fun ms members => by simpa [members] using set

theorem matchChannels_divides (b : Body MatchFields) : whole (takeMatch (bodyChars [] matchChars b)) = b := by
  cases b with
  | misfit => rfl
  | fields f => rw [bodyChars, takeMatch_matchChars, whole]

theorem decodeRequest_unknown {code : Nat} (h : code = 0 ∨ 28 < code) (p : Port) (tag : Nat) (bs : List Byte) :
    decodeRequest p code tag bs = .unknownRequest ⟨p, tag⟩ code := by
  rcases h with rfl | beyond
  · rfl
  · obtain ⟨k, rfl⟩ := Nat.exists_eq_add_of_le' beyond
    rfl

/-- Each layout's reader takes back what its writer wrote, and the roles table names the request. -/
theorem decodeRequest_encodeRequest : ∀ (i : Instr) (hd : Head) (code : Nat) (bs : List Byte),
    i.wf canReadRecord = true → encodeRequest i = some (hd, code, bs) → decodeRequest hd.port code hd.tag bs = i
  | .unknownRequest hd _, _, _, _, h, rfl =>
    decodeRequest_unknown (by simpa using (Bool.and_eq_true_iff.1 h).2) hd.port hd.tag []
  | .presence _ _, _, _, _, h, rfl => presence_divides h rfl
  | .portReset hd b, _, _, _, _, rfl => congrArg (Instr.portReset hd) (whole_emptyBody b)
  | .setTime hd _, _, _, _, h, rfl => congrArg (Instr.setTime hd) (whole_bodyChars h rfl fun _ => takeSched_end)
  | .configureHouse hd _, _, _, _, h, rfl => congrArg (Instr.configureHouse hd)
    (whole_bodyChars h rfl fun _ => takeHouse_houseChars)
  | .configureChannel hd _, _, _, _, h, rfl => congrArg (Instr.configureChannel hd)
    (whole_bodyChars h rfl fun _ => takeChannel_channelChars)
  | .readChannel hd _, _, _, _, h, rfl => congrArg (Instr.readChannel hd)
    (whole_bodyChars h rfl fun _ => takeNum_numChars_end)
  | .openBatch hd _, _, _, _, h, rfl => congrArg (Instr.openBatch hd) (openBatch_divides h)
  | .addEntries hd _, _, _, _, h, rfl => congrArg (Instr.addEntries hd) (addEntries_divides h)
  | .closeBatch hd _, _, _, _, h, rfl => congrArg (Instr.closeBatch hd) (closeBatch_divides h)
  | .abortBatch hd _, _, _, _, h, rfl => congrArg (Instr.abortBatch hd)
    (whole_bodyChars h rfl fun _ => takeNum_numChars_end)
  | .readEvents hd _, _, _, _, h, rfl => congrArg (Instr.readEvents hd) (readEvents_divides h)
  | .readNextEvents hd _, _, _, _, h, rfl => congrArg (Instr.readNextEvents hd)
    (whole_bodyChars h rfl fun _ => takeNum_numChars_end)
  | .readCursor hd _, _, _, _, h, rfl => congrArg (Instr.readCursor hd) (readCursor_divides h)
  | .take hd _, _, _, _, h, rfl => congrArg (Instr.take hd) (whole_bodyChars h rfl fun _ => takeTake_chars)
  | .cancelTake hd _, _, _, _, h, rfl => congrArg (Instr.cancelTake hd)
    (whole_bodyChars h rfl fun _ => takeNum_numChars_end)
  | .fetchCue hd _, _, _, _, h, rfl => congrArg (Instr.fetchCue hd)
    (whole_bodyChars h rfl fun _ => takeNum_numChars_end)
  | .cueReady hd _, _, _, _, h, rfl => congrArg (Instr.cueReady hd) (whole_bodyChars h rfl fun _ => takeReady_chars)
  | .hold hd _, _, _, _, h, rfl => congrArg (Instr.hold hd) (whole_bodyChars h rfl fun _ => takeNum_numChars_end)
  | .releaseHold hd _, _, _, _, h, rfl => congrArg (Instr.releaseHold hd)
    (whole_bodyChars h rfl fun _ => takeRelease_chars)
  | .handback hd _, _, _, _, h, rfl => congrArg (Instr.handback hd) (whole_bodyChars h rfl fun _ => takeReturn_chars)
  | .cancelReturn hd _, _, _, _, h, rfl => congrArg (Instr.cancelReturn hd)
    (whole_bodyChars h rfl fun _ => takeNum_numChars_end)
  | .arm hd _, _, _, _, h, rfl => congrArg (Instr.arm hd) (whole_bodyChars h rfl fun _ => takeArm_armChars)
  | .matchChannels hd b, _, _, _, _, rfl => congrArg (Instr.matchChannels hd) (matchChannels_divides b)
  | .readAsRun hd _, _, _, _, h, rfl => congrArg (Instr.readAsRun hd) (readAsRun_divides h)
  | .mark hd _, _, _, _, h, rfl => congrArg (Instr.mark hd) (whole_bodyChars h rfl fun _ => takeMark_chars)
  | .readStatus hd b, _, _, _, _, rfl => congrArg (Instr.readStatus hd) (whole_emptyBody b)
  | .readFaults hd b, _, _, _, _, rfl => congrArg (Instr.readFaults hd) (whole_emptyBody b)
  | .clearFaults hd _, _, _, _, h, rfl => congrArg (Instr.clearFaults hd)
    (whole_bodyChars h rfl fun _ => takeClear_clearChars)

/-- Settles O8. -/
theorem requestBodiesDivideBack : Obligations.RequestBodiesDivideBack := decodeRequest_encodeRequest

end Sys2Proof
end

section
/-! A request's frame, received character by character, is taken as exactly that request (R204, R215). -/

namespace Sys2Proof

/-- A well-formed request has a code and a tag of one character each. -/
theorem encodeRequest_head_fits : ∀ (i : Instr) (hd : Head) (code : Nat) (bs : List Byte),
    i.wf canReadRecord = true → encodeRequest i = some (hd, code, bs) → fits 1 code = true ∧ hd.wf = true
  | .unknownRequest _ _, _, _, _, h, rfl => by simp_all [Instr.wf]
  | .presence _ _, _, _, _, h, rfl | .setTime _ _, _, _, _, h, rfl | .configureHouse _ _, _, _, _, h, rfl
  | .configureChannel _ _, _, _, _, h, rfl | .readChannel _ _, _, _, _, h, rfl | .openBatch _ _, _, _, _, h, rfl
  | .addEntries _ _, _, _, _, h, rfl | .closeBatch _ _, _, _, _, h, rfl | .abortBatch _ _, _, _, _, h, rfl
  | .readEvents _ _, _, _, _, h, rfl | .readNextEvents _ _, _, _, _, h, rfl | .readCursor _ _, _, _, _, h, rfl
  | .take _ _, _, _, _, h, rfl | .cancelTake _ _, _, _, _, h, rfl | .fetchCue _ _, _, _, _, h, rfl
  | .cueReady _ _, _, _, _, h, rfl | .hold _ _, _, _, _, h, rfl | .releaseHold _ _, _, _, _, h, rfl
  | .handback _ _, _, _, _, h, rfl | .cancelReturn _ _, _, _, _, h, rfl | .arm _ _, _, _, _, h, rfl
  | .readAsRun _ _, _, _, _, h, rfl | .mark _ _, _, _, _, h, rfl | .clearFaults _ _, _, _, _, h, rfl =>
    ⟨rfl, (Bool.and_eq_true_iff.1 h).1⟩
  | .portReset _ _, _, _, _, h, rfl | .matchChannels _ _, _, _, _, h, rfl | .readStatus _ _, _, _, _, h, rfl
  | .readFaults _ _, _, _, _, h, rfl => ⟨rfl, h⟩

/-! ## The receive line (R204) -/

/-- A character that leaves the frame it stands in short of its stated length is added to it. -/
theorem receive_within (p : Port) {pre : List Byte} {c : Byte} (es : List LineEvent)
    (short : ∀ n, statedLength (pre ++ [c]) = some n → n ≤ 2048 ∧ (pre ++ [c]).length < n + 6) :
    receiveAll p (.inFrame pre) (.char c true :: es) = receiveAll p (.inFrame (pre ++ [c])) es := by
  have added : frameChar p (pre ++ [c]) = (.inFrame (pre ++ [c]), none) := by
    unfold frameChar
    split
    · rfl
    next n stated =>
      obtain ⟨bounded, more⟩ := short n stated
      rw [if_neg (Nat.not_lt.2 bounded), if_pos more]
  have event : receiveLine p (.inFrame pre) (.char c true) = frameChar p (pre ++ [c]) := rfl
  rw [receiveAll, event, added]

/-- The last check character completes the frame, and the line hunts. -/
theorem receive_last (p : Port) {pre : List Byte} {c : Byte} {n : Nat} (stated : statedLength (pre ++ [c]) = some n)
    (bounded : n ≤ 2048) (full : (pre ++ [c]).length = n + 6) :
    receiveAll p (.inFrame pre) [.char c true] = (.hunting, [completeFrame p (pre ++ [c])]) := by
  have taken : frameChar p (pre ++ [c]) = (.hunting, some (completeFrame p (pre ++ [c]))) := by
    simp only [frameChar, stated, if_neg (Nat.not_lt.2 bounded), if_neg (Nat.not_lt.2 (Nat.le_of_eq full.symm))]
  have event : receiveLine p (.inFrame pre) (.char c true) = frameChar p (pre ++ [c]) := rfl
  rw [receiveAll, event, taken]
  rfl

/-- What a part of a frame states of its length is what the whole frame states. -/
theorem statedLength_append {pre post : List Byte} {n m : Nat} (whole : statedLength (pre ++ post) = some n)
    (part : statedLength pre = some m) : m = n := by
  match pre, part, whole with
  | _ :: _ :: _, rfl, rfl => rfl

/-- The rest of a frame, character by character, completes it. -/
theorem receive_frame (p : Port) {n : Nat} (bounded : n ≤ 2048) {post pre : List Byte} (more : post ≠ [])
    (stated : statedLength (pre ++ post) = some n) (full : (pre ++ post).length = n + 6) :
    receiveAll p (.inFrame pre) (post.map fun b => .char b true) = (.hunting, [completeFrame p (pre ++ post)]) := by
  induction post generalizing pre with
  | nil => exact absurd rfl more
  | cons c post ih =>
    rcases post with _ | ⟨d, post⟩
    · exact receive_last p stated bounded full
    · have split : pre ++ c :: d :: post = (pre ++ [c]) ++ d :: post := by simp
      rw [split] at stated full ⊢
      rw [List.map_cons, receive_within p _ fun m part => ?_]
      · exact ih (List.cons_ne_nil d post) stated full
      · obtain rfl := statedLength_append stated part
        simp only [List.length_append, List.length_cons] at full ⊢
        exact ⟨bounded, by omega⟩

/-! ## The frame of a request (R215) -/

/-- The characters of a request's frame after its opening character. -/
def frameChars (code tag : Nat) (body : List Byte) : List Byte :=
  checkedChars code tag body ++ numChars 2 (crc (checkedChars code tag body)).toNat

theorem length_checkedChars (code tag : Nat) (body : List Byte) :
    (checkedChars code tag body).length = body.length + 4 := by
  simp only [checkedChars, List.length_append, length_numChars]
  omega

theorem statedLength_frameChars {code tag : Nat} {body : List Byte} (bounded : body.length ≤ 2048) :
    statedLength (frameChars code tag body) = some body.length := by
  have number : (BitVec.ofNat 8 (body.length / 256 ^ 1)).toNat * 256 + (BitVec.ofNat 8 (body.length / 256 ^ 0)).toNat =
      body.length := by
    simp only [BitVec.toNat_ofNat]
    omega
  exact congrArg some number

/-- A frame whose check agrees carries the request of its code, tag and body. -/
theorem completeFrame_frameChars (p : Port) {code tag : Nat} (codeFits : fits 1 code = true)
    (tagFits : fits 1 tag = true) (body : List Byte) :
    completeFrame p (frameChars code tag body) = decodeRequest p code tag body := by
  have length : (frameChars code tag body).length - 2 = (checkedChars code tag body).length := by
    simp [frameChars, length_numChars]
  have covered : (frameChars code tag body).take (checkedChars code tag body).length = checkedChars code tag body :=
    List.take_left
  have check : (frameChars code tag body).drop (checkedChars code tag body).length =
      numChars 2 (crc (checkedChars code tag body)).toNat := List.drop_left
  have one {n : Nat} (h : fits 1 n = true) : (BitVec.ofNat 8 (n / 256 ^ 0)).toNat = n := by
    simpa using fits_iff.1 h
  rw [completeFrame, length, covered, check, if_pos rfl]
  calc
    _ = decodeRequest p (BitVec.ofNat 8 (code / 256 ^ 0)).toNat (BitVec.ofNat 8 (tag / 256 ^ 0)).toNat body := rfl
    _ = decodeRequest p code tag body := by rw [one codeFits, one tagFits]

/-- Settles O9: the body length the frame states is met at its last check character, and the frame's check agrees. -/
theorem framesAreTakenAsTheirRequest : Obligations.FramesAreTakenAsTheirRequest := by
  unfold Obligations.FramesAreTakenAsTheirRequest
  intro i hd code bs h encoded bounded
  obtain ⟨codeFits, tagFits⟩ := encodeRequest_head_fits i hd code bs h encoded
  have full : (frameChars code hd.tag bs).length = bs.length + 6 := by
    rw [frameChars, List.length_append, length_checkedChars, length_numChars]
  have more : frameChars code hd.tag bs ≠ [] := List.ne_nil_of_length_eq_add_one full
  calc receiveAll hd.port .hunting ((requestFrame code hd.tag bs).map fun b => .char b true)
    _ = receiveAll hd.port (.inFrame []) ((frameChars code hd.tag bs).map fun b => .char b true) := rfl
    _ = (.hunting, [completeFrame hd.port (frameChars code hd.tag bs)]) :=
      receive_frame hd.port bounded (pre := []) more (statedLength_frameChars bounded) full
    _ = (.hunting, [i]) := by
      rw [completeFrame_frameChars hd.port codeFits tagFits, decodeRequest_encodeRequest i hd code bs h encoded]

end Sys2Proof
end
